-- ==== Sys2Proof/Word.lean ====
section
/-! DEFINITION. The widths the spec gives the engine's quantities (`00_scope.md` R10, R13): all are unsigned. -/

namespace Sys2Proof

/-- The unit of every transfer: 8 bits, bit 0 least significant (R10, R13). -/
abbrev Byte := BitVec 8

/-- The data or bitmask argument of a message (`WORD_BITS`, R10). -/
abbrev Word := BitVec 16

/-- The width of `timeout_us`, of the idle-poll counter and of the reported times (R10, R11). -/
abbrev Micros := BitVec 64

/-- A channel number, 0 to 63 (`CHANNEL_BITS`, R10, R26). -/
abbrev Channel := BitVec 6

/-- The 2-bit message kind: bits 7:6 of payload byte 0 (R101). -/
abbrev Kind := BitVec 2

end Sys2Proof
end

