-- ==== Sys2Proof/Config.lean ====
section
/-! DEFINITION. The constants the spec fixes (`00_scope.md` R10, R11) and the two free values of the environment. -/

namespace Sys2Proof.Config

/-- `ESC`, the framing escape byte (R10, R90). -/
abbrev esc : Byte := 0x1B#8

/-- `ETX`, the end-of-frame byte after the terminator's `ESC` (R10, R90). -/
abbrev etx : Byte := 0x03#8

/-- `STX`, the start byte of master origin (R10, R91). -/
abbrev stx : Byte := 0x02#8

/-- `ACK`, the positive start byte of slave origin (R10, R91). -/
abbrev ack : Byte := 0x06#8

/-- `NACK`, the negative start byte of slave origin (R10, R91). -/
abbrev nack : Byte := 0x15#8

/-- The message kind of GetWord, direction code 0x00 (R101). -/
abbrev kindGetWord : Kind := 0#2

/-- The message kind of ResetBitmask, direction code 0x40 (R101). -/
abbrev kindResetBitmask : Kind := 1#2

/-- The message kind of SetBitmask, direction code 0x80 (R101). -/
abbrev kindSetBitmask : Kind := 2#2

/-- The message kind of SetWord, direction code 0xC0 (R101). -/
abbrev kindSetWord : Kind := 3#2

/-- `POLL_DELAY_US`, the delay asked for in every idle poll (R10). -/
abbrev pollDelayUs : Nat := 1

/-- The one value of `timeout_us` that is not admitted, 2^64 - 1 (R11, R192). -/
abbrev timeoutNotAdmitted : Micros := 0xFFFFFFFFFFFFFFFF#64

/-- The number of assigned operation codes, 0x00 to 0x13 (R110). -/
abbrev operationCount : Nat := 0x14

/-- DESIGN CHOICE (log entry 3), safe. A FREE VALUE: what `ConnReady()` answers at the n-th draw (R63, U8). It has no
body, so nothing can be proved of it. -/
opaque connReady : Nat → Bool

/-- DESIGN CHOICE (log entry 3), safe. A FREE VALUE: what `ConnReceive()` returns at the n-th draw (R64, U8). It has no
body, so nothing can be proved of it. -/
opaque connReceive : Nat → Byte

end Sys2Proof.Config
end

