-- ==== Sys2Proof/Syntax.lean ====
section
/-! DEFINITION. The rows of `spec/opcode_table.json` as one inductive (`30_encoding.md` R110, R114), and the forms in
which the host presents them: the operation ports of `10_state.md` R47 and the encoded patterns of R114. -/

namespace Sys2Proof

/-- One constructor per row of the table, in the table's order. Operands are the raw port values of R47: a frame is the
40-bit packing of R25, so an ill-typed operand (U2, U6) can be presented and is refused by the meaning. -/
inductive Instr where
  /-- `ESC`, format CTRL (R90). -/
  | esc
  /-- `ETX`, format CTRL (R90). -/
  | etx
  /-- `STX`, format START (R91). -/
  | stx
  /-- `ACK`, format START (R91). -/
  | ack
  /-- `NACK`, format START (R91). -/
  | nack
  /-- `FRAME.STX`, the logical wire form with payload bytes and checksum byte (R92). -/
  | frameStx (d0 d1 d2 d3 chk : Byte)
  /-- `FRAME.ACK` (R92). -/
  | frameAck (d0 d1 d2 d3 chk : Byte)
  /-- `FRAME.NACK` (R92). -/
  | frameNack (d0 d1 d2 d3 chk : Byte)
  /-- `GETWORD`, kind 0; the argument bytes are carried and ignored (R232, R28). -/
  | getword (channel : Channel) (waddr : Byte) (arg : Word)
  /-- `RESETBITMASK`, kind 1 (R235). -/
  | resetbitmask (channel : Channel) (waddr : Byte) (arg : Word)
  /-- `SETBITMASK`, kind 2 (R234). -/
  | setbitmask (channel : Channel) (waddr : Byte) (arg : Word)
  /-- `SETWORD`, kind 3 (R233). -/
  | setword (channel : Channel) (waddr : Byte) (arg : Word)
  /-- `CHK.CALC`, code 0x00 (R131). -/
  | chkCalc (frame : BitVec 40)
  /-- `ENC.LOAD`, code 0x01 (R141). -/
  | encLoad (frame : BitVec 40)
  /-- `ENC.NEXT`, code 0x02 (R142). -/
  | encNext
  /-- `DEC.INIT`, code 0x03 (R161). -/
  | decInit
  /-- `DEC.PUSH`, code 0x04 (R160). -/
  | decPush (byte : Byte)
  /-- `TXN.START`, code 0x05 (R191). -/
  | txnStart (frame : BitVec 40) (timeout : Micros)
  /-- `TXN.STEP`, code 0x06 (R193). -/
  | txnStep
  /-- `TXN.RUN`, code 0x07 (R199). -/
  | txnRun (frame : BitVec 40) (timeout : Micros)
  /-- `SB.FROM`, code 0x08 (R222). -/
  | sbFrom (byte : Byte)
  /-- `SB.TOMASTER`, code 0x09 (R223). -/
  | sbTomaster (byte : Byte)
  /-- `SB.TOSLAVE`, code 0x0A (R224). -/
  | sbToslave (byte : Byte)
  /-- `FR.TOSLAVE`, code 0x0B (R225). -/
  | frToslave (frame : BitVec 40)
  /-- `CH.FROM`, code 0x0C (R226). -/
  | chFrom (byte : Byte)
  /-- `CH.ISZERO`, code 0x0D (R227). -/
  | chIszero (byte : Byte)
  /-- `W16.SPLIT`, code 0x0E (R228). -/
  | w16Split (w16 : Word)
  /-- `W16.JOIN`, code 0x0F; the operand port carries `high` in its upper byte and `low` in its lower (R229). -/
  | w16Join (w16 : Word)
  /-- `W16.BIT`, code 0x10 (R230). -/
  | w16Bit (w16 : Word) (pos : BitVec 4)
  /-- `TL.MKFRAME`, code 0x11 (R231). -/
  | tlMkframe (byte : Byte) (kind : Kind) (waddr : Byte) (w16 : Word)
  /-- `PL.SPLIT0`, code 0x12 (R236). -/
  | plSplit0 (byte : Byte)
  /-- `TL.XPKT`, code 0x13 (R237). -/
  | tlXpkt (byte : Byte) (kind : Kind) (waddr : Byte) (w16 : Word) (timeout : Micros)
deriving DecidableEq, Repr

/-- `TL.GETWORD c, w, t`, a pseudo-operation (R113, R238). -/
def tlGetword (c : Byte) (w : Byte) (t : Micros) : Instr := .tlXpkt c Config.kindGetWord w 0#16 t

/-- `TL.SETWORD c, w, v, t`, a pseudo-operation (R113, R238). -/
def tlSetword (c : Byte) (w : Byte) (v : Word) (t : Micros) : Instr := .tlXpkt c Config.kindSetWord w v t

/-- `TL.SETBITMASK c, w, m, t`, a pseudo-operation (R113, R238). -/
def tlSetbitmask (c : Byte) (w : Byte) (m : Word) (t : Micros) : Instr := .tlXpkt c Config.kindSetBitmask w m t

/-- `TL.RESETBITMASK c, w, m, t`, a pseudo-operation (R113, R238). -/
def tlResetbitmask (c : Byte) (w : Byte) (m : Word) (t : Micros) : Instr := .tlXpkt c Config.kindResetBitmask w m t

/-- The host-to-engine value ports of one operation (R47). -/
structure Ports where
  /-- Operation select. -/
  op : BitVec 5
  /-- A Frame packed as R25 says. -/
  argFrame : BitVec 40
  /-- A raw byte, or a channel. -/
  argByte : Byte
  /-- `timeout_us`. -/
  argTimeout : Micros
  /-- The message kind. -/
  argKind : Kind
  /-- The word address. -/
  argWaddr : Byte
  /-- Data or bitmask. -/
  argW16 : Word
  /-- A bit position. -/
  argPos : BitVec 4
deriving DecidableEq, Repr

/-- What the host presents for one step, in one of the five formats of the table (R114). DESIGN CHOICE (log entry 2): the
format is part of what is presented, since the same bits mean different things in different formats. -/
inductive Request where
  /-- Format CTRL: one byte. -/
  | ctrl (byte : Byte)
  /-- Format START: the byte at wire position 1. -/
  | start (byte : Byte)
  /-- Format FRAME: the 72-bit logical wire form, position 0 most significant (R92). -/
  | frame (bits : BitVec 72)
  /-- Format MSG: the four payload bytes of a master frame (R99). -/
  | msg (b0 b1 b2 b3 : Byte)
  /-- Format OP: the operation ports (R47). -/
  | op (ports : Ports)
deriving DecidableEq, Repr

/-- Why a request is no row of the table. For the operation codes the refusal is U1's; for the other formats it is the model's
choice (log entry 20). -/
inductive DecodeError where
  /-- An operation code 0x14 to 0x1F (R110, U1). -/
  | unassignedOperation (op : BitVec 5)
  /-- A CTRL byte that is neither `ESC` nor `ETX` (R90); refused by log entry 20, DESIGN CHOICE. -/
  | notAControlByte (byte : Byte)
  /-- A START byte outside 0x02, 0x06, 0x15 (R91); refused by log entry 20, DESIGN CHOICE. -/
  | notAStartByte (byte : Byte)
  /-- A FRAME pattern whose fixed bytes are not those of R92; refused by log entry 20, DESIGN CHOICE. -/
  | notAFramePattern (bits : BitVec 72)
deriving DecidableEq, Repr

end Sys2Proof
end

