-- ==== Sys2Proof/WellFormed.lean ====
section
/-! DEFINITION. Which instructions have operands of the types their rules ask for (`93_implementation_defined.md` U2, U4,
U6; `30_encoding.md` R92). -/

namespace Sys2Proof

/-- The byte is one of the three legal start bytes (R91, R23). -/
abbrev legalStartByte (b : Byte) : Bool := b == Config.stx || b == Config.ack || b == Config.nack

/-- The start byte field, bits 39:32, of a 40-bit frame operand is legal (R25, U6). -/
abbrev legalFrameOperand (f : BitVec 40) : Bool := legalStartByte (f.extractLsb' 32 8)

/-- The operand is a `Channel`, 0 to 63 (R26, U2). -/
abbrev legalChannelOperand (b : Byte) : Bool := decide (b.toNat < 64)

/-- The timeout is in the admitted range 0 to 2^64 - 2 (R192, U4). -/
abbrev admittedTimeout (t : Micros) : Bool := t != Config.timeoutNotAdmitted

/-- Bytes that sum to zero modulo 256 together with `ETX`, so that the last is the checksum of the others (R133 (b), R134). -/
abbrev legalFrameBytes (start d0 d1 d2 d3 chk : Byte) : Bool :=
  start + d0 + d1 + d2 + d3 + Config.etx + chk == 0#8

/-- The operands have the types the instruction's rule asks for. A `FRAME` row is well formed when its last field is the
checksum of the others, as its row of the table says. -/
def wellFormed : Instr → Bool
  | .esc => true
  | .etx => true
  | .stx => true
  | .ack => true
  | .nack => true
  | .frameStx d0 d1 d2 d3 k => legalFrameBytes Config.stx d0 d1 d2 d3 k
  | .frameAck d0 d1 d2 d3 k => legalFrameBytes Config.ack d0 d1 d2 d3 k
  | .frameNack d0 d1 d2 d3 k => legalFrameBytes Config.nack d0 d1 d2 d3 k
  | .getword _ _ _ => true
  | .resetbitmask _ _ _ => true
  | .setbitmask _ _ _ => true
  | .setword _ _ _ => true
  | .chkCalc f => legalFrameOperand f
  | .encLoad f => legalFrameOperand f
  | .encNext => true
  | .decInit => true
  | .decPush _ => true
  | .txnStart f t => legalFrameOperand f && admittedTimeout t
  | .txnStep => true
  | .txnRun f t => legalFrameOperand f && admittedTimeout t
  | .sbFrom _ => true
  | .sbTomaster b => legalStartByte b
  | .sbToslave b => legalStartByte b
  | .frToslave f => legalFrameOperand f
  | .chFrom _ => true
  | .chIszero b => legalChannelOperand b
  | .w16Split _ => true
  | .w16Join _ => true
  | .w16Bit _ _ => true
  | .tlMkframe c _ _ _ => legalChannelOperand c
  | .plSplit0 _ => true
  | .tlXpkt c _ _ _ t => !legalChannelOperand c || admittedTimeout t

end Sys2Proof
end

