-- ==== Sys2Proof/Decode.lean ====
section
/-! DEFINITION. Decoding a request into an instruction and encoding it back, from the table of `30_encoding.md` R110 and
R114; and the two entry points through which the host presents a word of `spec/opcode_table.json`. -/

namespace Sys2Proof

/-- The operation codes of R110. -/
def decodeOperation (p : Ports) : Except DecodeError Instr :=
  match p.op.toNat with
  | 0x00 => .ok (.chkCalc p.argFrame)
  | 0x01 => .ok (.encLoad p.argFrame)
  | 0x02 => .ok .encNext
  | 0x03 => .ok .decInit
  | 0x04 => .ok (.decPush p.argByte)
  | 0x05 => .ok (.txnStart p.argFrame p.argTimeout)
  | 0x06 => .ok .txnStep
  | 0x07 => .ok (.txnRun p.argFrame p.argTimeout)
  | 0x08 => .ok (.sbFrom p.argByte)
  | 0x09 => .ok (.sbTomaster p.argByte)
  | 0x0A => .ok (.sbToslave p.argByte)
  | 0x0B => .ok (.frToslave p.argFrame)
  | 0x0C => .ok (.chFrom p.argByte)
  | 0x0D => .ok (.chIszero p.argByte)
  | 0x0E => .ok (.w16Split p.argW16)
  | 0x0F => .ok (.w16Join p.argW16)
  | 0x10 => .ok (.w16Bit p.argW16 p.argPos)
  | 0x11 => .ok (.tlMkframe p.argByte p.argKind p.argWaddr p.argW16)
  | 0x12 => .ok (.plSplit0 p.argByte)
  | 0x13 => .ok (.tlXpkt p.argByte p.argKind p.argWaddr p.argW16 p.argTimeout)
  | _ => .error (.unassignedOperation p.op)

/-- The two control bytes (R90). DESIGN CHOICE (log entry 20), safe: a CTRL pattern that is no row of the table is refused. -/
def decodeControl (b : Byte) : Except DecodeError Instr :=
  if b = Config.esc then .ok .esc
  else if b = Config.etx then .ok .etx
  else .error (.notAControlByte b)

/-- The three start bytes (R91). DESIGN CHOICE (log entry 20), safe: a START pattern that is no row of the table is refused;
a byte of the wire that is no start byte is R104's `InvalidStartByte`, by `DEC.PUSH`. -/
def decodeStart (b : Byte) : Except DecodeError Instr :=
  if b = Config.stx then .ok .stx
  else if b = Config.ack then .ok .ack
  else if b = Config.nack then .ok .nack
  else .error (.notAStartByte b)

/-- The byte at wire position `n` of the 72-bit logical form, position 0 most significant (R92). -/
def framePosition (bits : BitVec 72) (n : Nat) : Byte := bits.extractLsb' (64 - 8 * n) 8

/-- The fixed framing bytes of R92 at positions 0, 6 and 7. -/
def framingBytesStand (bits : BitVec 72) : Bool :=
  framePosition bits 0 == Config.esc && framePosition bits 6 == Config.esc && framePosition bits 7 == Config.etx

/-- The three frame kinds, told by the start byte alone (R92, R93). DESIGN CHOICE (log entry 20), safe: a FRAME pattern that is
no row of the table is refused; its bytes met one by one on the wire are judged by R104, by `DEC.PUSH`. -/
def decodeFrame (bits : BitVec 72) : Except DecodeError Instr :=
  if framingBytesStand bits then
    if framePosition bits 1 = Config.stx then
      .ok (.frameStx (framePosition bits 2) (framePosition bits 3) (framePosition bits 4) (framePosition bits 5)
        (framePosition bits 8))
    else if framePosition bits 1 = Config.ack then
      .ok (.frameAck (framePosition bits 2) (framePosition bits 3) (framePosition bits 4) (framePosition bits 5)
        (framePosition bits 8))
    else if framePosition bits 1 = Config.nack then
      .ok (.frameNack (framePosition bits 2) (framePosition bits 3) (framePosition bits 4) (framePosition bits 5)
        (framePosition bits 8))
    else .error (.notAFramePattern bits)
  else .error (.notAFramePattern bits)

/-- The four message kinds: bits 7:6 of payload byte 0 select the kind, bits 5:0 are the channel, the argument is carried
low byte first (R99 to R102). -/
def decodeMessage (b0 b1 b2 b3 : Byte) : Instr :=
  match (b0.extractLsb' 6 2).toNat with
  | 0 => .getword (b0.extractLsb' 0 6) b1 (b3 ++ b2)
  | 1 => .resetbitmask (b0.extractLsb' 0 6) b1 (b3 ++ b2)
  | 2 => .setbitmask (b0.extractLsb' 0 6) b1 (b3 ++ b2)
  | _ => .setword (b0.extractLsb' 0 6) b1 (b3 ++ b2)

/-- The decoder: total on every request, rejecting by name what is no row of the table (R104, R110, U1). -/
def decode : Request → Except DecodeError Instr
  | .ctrl b => decodeControl b
  | .start b => decodeStart b
  | .frame bits => decodeFrame bits
  | .msg b0 b1 b2 b3 => .ok (decodeMessage b0 b1 b2 b3)
  | .op p => decodeOperation p

/-- All operand ports at zero, with an operation selected. DESIGN CHOICE (log entry 2), safe: a port an operation does not
read carries zero when the model encodes it. -/
def portsOf (op : BitVec 5) : Ports := ⟨op, 0#40, 0#8, 0#64, 0#2, 0#8, 0#16, 0#4⟩

/-- The 72-bit logical wire form (R92). -/
def encodeFrame (start d0 d1 d2 d3 chk : Byte) : Request :=
  .frame (Config.esc ++ start ++ d0 ++ d1 ++ d2 ++ d3 ++ Config.esc ++ Config.etx ++ chk)

/-- The payload of a message: kind and channel in byte 0, then the word address, then the argument low byte first (R102). -/
def encodeMessage (k : Kind) (c : Channel) (w : Byte) (a : Word) : Request :=
  .msg (k ++ c) w (a.extractLsb' 0 8) (a.extractLsb' 8 8)

/-- The encoder: the request that presents an instruction, written from the encodings of R90 to R92, R102 and R110. -/
def encode : Instr → Request
  | .esc => .ctrl Config.esc
  | .etx => .ctrl Config.etx
  | .stx => .start Config.stx
  | .ack => .start Config.ack
  | .nack => .start Config.nack
  | .frameStx d0 d1 d2 d3 k => encodeFrame Config.stx d0 d1 d2 d3 k
  | .frameAck d0 d1 d2 d3 k => encodeFrame Config.ack d0 d1 d2 d3 k
  | .frameNack d0 d1 d2 d3 k => encodeFrame Config.nack d0 d1 d2 d3 k
  | .getword c w a => encodeMessage Config.kindGetWord c w a
  | .resetbitmask c w a => encodeMessage Config.kindResetBitmask c w a
  | .setbitmask c w a => encodeMessage Config.kindSetBitmask c w a
  | .setword c w a => encodeMessage Config.kindSetWord c w a
  | .chkCalc f => .op { portsOf 0x00#5 with argFrame := f }
  | .encLoad f => .op { portsOf 0x01#5 with argFrame := f }
  | .encNext => .op (portsOf 0x02#5)
  | .decInit => .op (portsOf 0x03#5)
  | .decPush b => .op { portsOf 0x04#5 with argByte := b }
  | .txnStart f t => .op { portsOf 0x05#5 with argFrame := f, argTimeout := t }
  | .txnStep => .op (portsOf 0x06#5)
  | .txnRun f t => .op { portsOf 0x07#5 with argFrame := f, argTimeout := t }
  | .sbFrom b => .op { portsOf 0x08#5 with argByte := b }
  | .sbTomaster b => .op { portsOf 0x09#5 with argByte := b }
  | .sbToslave b => .op { portsOf 0x0A#5 with argByte := b }
  | .frToslave f => .op { portsOf 0x0B#5 with argFrame := f }
  | .chFrom b => .op { portsOf 0x0C#5 with argByte := b }
  | .chIszero b => .op { portsOf 0x0D#5 with argByte := b }
  | .w16Split w => .op { portsOf 0x0E#5 with argW16 := w }
  | .w16Join w => .op { portsOf 0x0F#5 with argW16 := w }
  | .w16Bit w p => .op { portsOf 0x10#5 with argW16 := w, argPos := p }
  | .tlMkframe b k w a => .op { portsOf 0x11#5 with argByte := b, argKind := k, argWaddr := w, argW16 := a }
  | .plSplit0 b => .op { portsOf 0x12#5 with argByte := b }
  | .tlXpkt b k w a t =>
    .op { portsOf 0x13#5 with argByte := b, argKind := k, argWaddr := w, argW16 := a, argTimeout := t }

/-- One row of `spec/opcode_table.json`: its mnemonic, its format's number (0 CTRL, 1 START, 2 FRAME, 3 MSG, 4 OP), and
its fixed bits as a mask and a value. A FRAME row's mask and value are read from its 72-bit pattern. -/
structure TableRow where
  /-- The row's mnemonic, letter for letter. -/
  mnemonic : String
  /-- The row's format. -/
  format : Nat
  /-- The fixed bits. -/
  mask : Nat
  /-- Their value. -/
  value : Nat
deriving DecidableEq, Repr

/-- The opcode table (R114), in its own order. -/
def opcodeTable : List TableRow :=
  [⟨"ESC", 0, 0xFF, 0x1B⟩, ⟨"ETX", 0, 0xFF, 0x03⟩,
   ⟨"STX", 1, 0xFF, 0x02⟩, ⟨"ACK", 1, 0xFF, 0x06⟩, ⟨"NACK", 1, 0xFF, 0x15⟩,
   ⟨"FRAME.STX", 2, 0xFFFF00000000FFFF00, 0x1B02000000001B0300⟩,
   ⟨"FRAME.ACK", 2, 0xFFFF00000000FFFF00, 0x1B06000000001B0300⟩,
   ⟨"FRAME.NACK", 2, 0xFFFF00000000FFFF00, 0x1B15000000001B0300⟩,
   ⟨"GETWORD", 3, 0xC0, 0x00⟩, ⟨"RESETBITMASK", 3, 0xC0, 0x40⟩,
   ⟨"SETBITMASK", 3, 0xC0, 0x80⟩, ⟨"SETWORD", 3, 0xC0, 0xC0⟩,
   ⟨"CHK.CALC", 4, 0x1F, 0x00⟩, ⟨"ENC.LOAD", 4, 0x1F, 0x01⟩, ⟨"ENC.NEXT", 4, 0x1F, 0x02⟩,
   ⟨"DEC.INIT", 4, 0x1F, 0x03⟩, ⟨"DEC.PUSH", 4, 0x1F, 0x04⟩, ⟨"TXN.START", 4, 0x1F, 0x05⟩,
   ⟨"TXN.STEP", 4, 0x1F, 0x06⟩, ⟨"TXN.RUN", 4, 0x1F, 0x07⟩, ⟨"SB.FROM", 4, 0x1F, 0x08⟩,
   ⟨"SB.TOMASTER", 4, 0x1F, 0x09⟩, ⟨"SB.TOSLAVE", 4, 0x1F, 0x0A⟩, ⟨"FR.TOSLAVE", 4, 0x1F, 0x0B⟩,
   ⟨"CH.FROM", 4, 0x1F, 0x0C⟩, ⟨"CH.ISZERO", 4, 0x1F, 0x0D⟩, ⟨"W16.SPLIT", 4, 0x1F, 0x0E⟩,
   ⟨"W16.JOIN", 4, 0x1F, 0x0F⟩, ⟨"W16.BIT", 4, 0x1F, 0x10⟩, ⟨"TL.MKFRAME", 4, 0x1F, 0x11⟩,
   ⟨"PL.SPLIT0", 4, 0x1F, 0x12⟩, ⟨"TL.XPKT", 4, 0x1F, 0x13⟩]

/-- The place of an instruction's row in `opcodeTable`. -/
def rowIndex : Instr → Nat
  | .esc => 0
  | .etx => 1
  | .stx => 2
  | .ack => 3
  | .nack => 4
  | .frameStx _ _ _ _ _ => 5
  | .frameAck _ _ _ _ _ => 6
  | .frameNack _ _ _ _ _ => 7
  | .getword _ _ _ => 8
  | .resetbitmask _ _ _ => 9
  | .setbitmask _ _ _ => 10
  | .setword _ _ _ => 11
  | .chkCalc _ => 12
  | .encLoad _ => 13
  | .encNext => 14
  | .decInit => 15
  | .decPush _ => 16
  | .txnStart _ _ => 17
  | .txnStep => 18
  | .txnRun _ _ => 19
  | .sbFrom _ => 20
  | .sbTomaster _ => 21
  | .sbToslave _ => 22
  | .frToslave _ => 23
  | .chFrom _ => 24
  | .chIszero _ => 25
  | .w16Split _ => 26
  | .w16Join _ => 27
  | .w16Bit _ _ => 28
  | .tlMkframe _ _ _ _ => 29
  | .plSplit0 _ => 30
  | .tlXpkt _ _ _ _ _ => 31

/-- The request is of the row's format and its matched bits (the byte, wire position 1, the 72-bit pattern, payload byte 0
or the `op` port, R114) agree with the row's fixed bits. -/
def rowMatches (row : TableRow) : Request → Bool
  | .ctrl b => row.format == 0 && (b.toNat &&& row.mask) == row.value
  | .start b => row.format == 1 && (b.toNat &&& row.mask) == row.value
  | .frame bits => row.format == 2 && (bits.toNat &&& row.mask) == row.value
  | .msg b0 _ _ _ => row.format == 3 && (b0.toNat &&& row.mask) == row.value
  | .op p => row.format == 4 && (p.op.toNat &&& row.mask) == row.value

/-- The bytes of a word numbered as the table numbers them, first byte least significant, laid out as the 72-bit pattern of
R92, position 0 most significant. -/
def tableFrame (w : Nat) : BitVec 72 :=
  (List.range 9).foldl (fun acc n => (acc <<< 8) ||| BitVec.ofNat 72 (w / 256 ^ n % 256)) 0#72

/-- The request that a bare word of the table stands for. DESIGN CHOICE (log entry 2), safe: the table's five formats are
matched on different ports and share bit patterns, and a bare word does not say which one it is. A word of more than four
bytes is read as FRAME; of more than one, as MSG; a single byte is read as an operation code where R110 assigns one, else
as a start byte, else as a control byte, else as payload byte 0. -/
def tableRequest (nbits w : Nat) : Request :=
  if nbits > 32 then .frame (tableFrame w)
  else if nbits > 8 then
    .msg (BitVec.ofNat 8 w) (BitVec.ofNat 8 (w / 256)) (BitVec.ofNat 8 (w / 65536)) (BitVec.ofNat 8 (w / 16777216))
  else if w < Config.operationCount then .op (portsOf (BitVec.ofNat 5 w))
  else if legalStartByte (BitVec.ofNat 8 w) then .start (BitVec.ofNat 8 w)
  else if BitVec.ofNat 8 w = Config.esc then .ctrl Config.esc
  else .msg (BitVec.ofNat 8 w) 0#8 0#8 0#8

/-- The instruction the decoder reads from a word of the table; operand ports above the word are zero. -/
def decodeTableWord (nbits w : Nat) : Option Instr := (decode (tableRequest nbits w)).toOption

end Sys2Proof
end

