-- ==== Sys2Proof/Machine/State.lean ====
section
/-! DEFINITION. The engine's data model (`10_state.md` R23 to R29), its registers (R40), the environment's side, the host's
pending inputs, and the state after reset (R48). Plain data throughout. -/

namespace Sys2Proof.Machine

/-! ### Value types carried by operands, registers and outcomes -/

/-- The three legal start bytes (R23). -/
inductive StartByte where
  /-- 0x02, master origin. -/
  | stx
  /-- 0x06, slave origin, positive. -/
  | ack
  /-- 0x15, slave origin, negative. -/
  | nack
deriving DecidableEq, Repr

/-- The refinement of `StartByte` to STX (R23). -/
inductive MasterStartByte where
  /-- 0x02. -/
  | stx
deriving DecidableEq, Repr

/-- The refinement of `StartByte` to ACK and NACK (R23). -/
inductive SlaveStartByte where
  /-- 0x06. -/
  | ack
  /-- 0x15. -/
  | nack
deriving DecidableEq, Repr

/-- Exactly four bytes, D0 to D3 of the wire (R24). -/
structure Payload where
  /-- Index 0: direction code and channel. -/
  d0 : Byte
  /-- Index 1: word address. -/
  d1 : Byte
  /-- Index 2: low data byte. -/
  d2 : Byte
  /-- Index 3: high data byte. -/
  d3 : Byte
deriving DecidableEq, Repr

/-- A frame: a start byte and a payload (R25). -/
structure Frame where
  /-- The start byte. -/
  start : StartByte
  /-- The payload. -/
  payload : Payload
deriving DecidableEq, Repr

/-- A frame whose start byte is of slave origin (R25). -/
structure SlaveFrame where
  /-- The start byte, ACK or NACK. -/
  start : SlaveStartByte
  /-- The payload. -/
  payload : Payload
deriving DecidableEq, Repr

/-- A domain message (R28). -/
inductive CmppMessage where
  /-- Ask for a word. -/
  | getWord (waddr : Byte)
  /-- Give a word's value. -/
  | setWord (waddr : Byte) (data : Word)
  /-- Set the bits of a mask. -/
  | setBitmask (waddr : Byte) (bitmask : Word)
  /-- Clear the bits of a mask. -/
  | resetBitmask (waddr : Byte) (bitmask : Word)
deriving DecidableEq, Repr

/-- The decoder's errors (R29, R263 to R267). -/
inductive SegmentError where
  /-- A byte that is no start byte, carried (R263). -/
  | invalidStartByte (byte : Byte)
  /-- A fifth payload byte (R264). -/
  | bufferOverFlow
  /-- Neither `ETX` nor a duplicate after the final `ESC`; the byte is carried (R265). -/
  | expectedEtxOrEscDupButFoundOtherThing (byte : Byte)
  /-- A lone 0x1B in a stuffable position (R266). -/
  | checksumIsEscButNotDuplicated
  /-- The received checksum is not the computed one (R267). -/
  | invalidChecksum (expected received : Byte)
deriving DecidableEq, Repr

/-- The error type of an exchange (R29, R270). -/
inductive DatalinkError where
  /-- A decode failure, unchanged. -/
  | segment (e : SegmentError)
  /-- The idle polls exceeded the timeout (R268). -/
  | receptionTimeout (elapsedTime : Micros)
deriving DecidableEq, Repr

/-- The error type of `TL.XPKT` (R29, R271). -/
inductive TransportError where
  /-- A raw channel of 64 or more (R269). -/
  | invalidChannel
  /-- A `DatalinkError`, unchanged. -/
  | datalink (e : DatalinkError)
deriving DecidableEq, Repr

/-- The failures of the three refinement conversions (R272). -/
inductive RefinementError where
  /-- `SB.TOMASTER` of ACK or NACK. -/
  | notMasterStartByte
  /-- `SB.TOSLAVE` of STX. -/
  | notSlaveStartByte
  /-- `FR.TOSLAVE` of an STX frame. -/
  | notSlaveFrame
deriving DecidableEq, Repr

/-- The bare error of `CH.FROM` (R269). -/
inductive ChannelError where
  /-- A raw value of 64 or more. -/
  | invalidChannel
deriving DecidableEq, Repr

/-- What a successful exchange delivers (R29). -/
structure DatalinkResult where
  /-- The decoded response frame. -/
  frame : Frame
  /-- The idle polls counted (R205). -/
  responseTimeUs : Micros
deriving DecidableEq, Repr

/-- The outcome of an exchange: `Ok` or `Err` (R39). -/
abbrev ExchangeOutcome := Except DatalinkError DatalinkResult

/-- The verdict on one pushed byte (R160). -/
inductive PushOutcome where
  /-- More bytes needed. -/
  | more
  /-- A completed frame. -/
  | frame (f : Frame)
  /-- A decode error. -/
  | err (e : SegmentError)
deriving DecidableEq, Repr

/-- The tagged outcome port `res` (R47): one constructor per outcome type an operation's rule names. -/
inductive Res where
  /-- "(nothing)": `ENC.LOAD`, `DEC.INIT`, `TXN.START`, `TXN.STEP`. -/
  | nothing
  /-- `CHK.CALC` (R131). -/
  | byte (b : Byte)
  /-- `ENC.NEXT` (R142). -/
  | nextByte (b : Option Byte)
  /-- `DEC.PUSH` (R160). -/
  | push (o : PushOutcome)
  /-- The verdicts on the bytes of a `FRAME` row, in order (log entry 7). -/
  | pushes (os : List PushOutcome)
  /-- `TXN.RUN` (R199). -/
  | exchange (o : ExchangeOutcome)
  /-- `TL.XPKT` (R237). -/
  | transport (o : Except TransportError DatalinkResult)
  /-- `SB.FROM` (R222). -/
  | startByte (o : Except SegmentError StartByte)
  /-- `SB.TOMASTER` (R223). -/
  | masterStartByte (o : Except RefinementError MasterStartByte)
  /-- `SB.TOSLAVE` (R224). -/
  | slaveStartByte (o : Except RefinementError SlaveStartByte)
  /-- `FR.TOSLAVE` (R225). -/
  | slaveFrame (o : Except RefinementError SlaveFrame)
  /-- `CH.FROM` (R226). -/
  | channel (o : Except ChannelError Channel)
  /-- `CH.ISZERO` (R227). -/
  | isZero (b : Bool)
  /-- `W16.SPLIT` (R228). -/
  | bytePair (low high : Byte)
  /-- `W16.JOIN` (R229). -/
  | word (w : Word)
  /-- `W16.BIT` (R230). -/
  | bit (b : Bool)
  /-- `TL.MKFRAME` and the `MSG` rows (R231). -/
  | frame (f : Frame)
  /-- `PL.SPLIT0` (R236). -/
  | kindChannel (k : Kind) (c : Channel)
deriving DecidableEq, Repr

/-! ### Registers -/

/-- `E.state`: the name of the next byte the encoder will emit (R31). -/
inductive EncState where
  /-- 0. -/
  | waitingFirstEsc
  /-- 1. -/
  | waitingStartByte
  /-- 2. -/
  | waitingData0
  /-- 3. -/
  | waitingData1
  /-- 4. -/
  | waitingData2
  /-- 5. -/
  | waitingData3
  /-- 6. -/
  | waitingFinalEsc
  /-- 7. -/
  | waitingEtx
  /-- 8. -/
  | waitingChecksum
  /-- 9. -/
  | finished
deriving DecidableEq, Repr

/-- `D.state`: the name of the byte the decoder is waiting for (R32). -/
inductive DecState where
  /-- 0. -/
  | initialEsc
  /-- 1. -/
  | startByte
  /-- 2, Data0. -/
  | directionAndChannel
  /-- 3, Data1. -/
  | command
  /-- 4, Data2. -/
  | dataLow
  /-- 5, Data3. -/
  | dataHigh
  /-- 6. -/
  | finalEsc
  /-- 7. -/
  | etxByte
  /-- 8. -/
  | checksum
  /-- 9, transient: never held between operations (R32, U2a). -/
  | successful
  /-- 10, transient: never held between operations (R32, U2a). -/
  | error
deriving DecidableEq, Repr

/-- One encoder instance (R21, R22, R34). -/
structure Encoder where
  /-- `E.state`. -/
  state : EncState
  /-- `E.dup`: the first 0x1B of a pair has been emitted and the second has not (R34). -/
  dup : Bool
  /-- `E.start`. -/
  start : StartByte
  /-- `E.pl[0..3]`. -/
  pl : Payload
deriving DecidableEq, Repr

/-- One decoder instance (R21, R22, R35). -/
structure Decoder where
  /-- `D.state`. -/
  state : DecState
  /-- `D.esc_pend`: a 0x1B has been received in a stuffable position and not yet paired (R35). -/
  escPend : Bool
  /-- `D.start`. -/
  start : StartByte
  /-- `D.buf[0..3]`. -/
  buf : Payload
deriving DecidableEq, Repr

/-- `txn.phase` (R33). -/
inductive Phase where
  /-- 0: no exchange since reset. -/
  | idle
  /-- 1: the request is being transmitted. -/
  | send
  /-- 2: the receive polling loop. -/
  | poll
  /-- 3: the exchange has ended. -/
  | done
deriving DecidableEq, Repr

/-- The registers of the transact unit (R33, R37 to R40), its private encoder and decoder among them (R21). -/
structure Transact where
  /-- `txn.phase`. -/
  phase : Phase
  /-- `txn.timeout` (R37). -/
  timeout : Micros
  /-- `txn.elapsed` (R38). -/
  elapsed : Micros
  /-- `txn.result` (R39). -/
  result : Option ExchangeOutcome
  /-- `txn.enc`. -/
  enc : Encoder
  /-- `txn.dec`. -/
  dec : Decoder
deriving DecidableEq, Repr

/-! ### The environment's side -/

/-- The environment's answers in one poll: `ConnReady()` false, or true with the byte `ConnReceive()` then returns
(R63, R64). -/
inductive PollAnswer where
  /-- Not ready. -/
  | idle
  /-- Ready, and the byte received. -/
  | byte (b : Byte)
deriving DecidableEq, Repr

/-- One call to the environment, with its answer: the connection's four functions (R61) and the delay (R66), those the engine
calls being the environment ports of R47. -/
inductive EnvCall where
  /-- `new(baud_rate)`: a connection is made (R65). It is the host's duty, done before the machine starts (log entry 21); no
  operation of the engine makes this call. The baud rate is omitted (U12, D29). -/
  | create
  /-- `ConnTransmit(b)`: port `tx_byte` (R62). -/
  | transmit (b : Byte)
  /-- `ConnReady()` and its answer: port `rx_ready` (R63). -/
  | ready (answer : Bool)
  /-- `ConnReceive()` and the byte returned: port `rx_byte` (R64). -/
  | receive (b : Byte)
  /-- `DelayUs(n)`: port `delay_count` (R66). -/
  | delay (n : Nat)
deriving DecidableEq, Repr

/-- The environment: the two logs of R45, the calls in order (the model's own, log entry 15), and the answers still to
come (the model's own, log entry 3). -/
structure Environment where
  /-- `env.txlog`: the bytes passed to `ConnTransmit`, in order (R45). -/
  txlog : List Byte
  /-- `env.delays`: the number of `DelayUs(1)` calls (R45). -/
  delays : Nat
  /-- Every call made, in order (log entry 15). -/
  trace : List EnvCall
  /-- The poll answers already fixed, the next one first (log entry 3). -/
  answers : List PollAnswer
  /-- How many answers were drawn from the free values of `Config` (log entry 3). -/
  draws : Nat
deriving DecidableEq, Repr

/-! ### The host's side -/

/-- One input of the host (R20 (a), R47). -/
inductive HostInput where
  /-- An operation is invoked. -/
  | invoke (r : Request)
  /-- The reset event (R48). -/
  | reset
deriving DecidableEq, Repr

/-- A blocking call in progress (R199, R237; log entry 5). -/
inductive Call where
  /-- `TXN.RUN`. -/
  | run
  /-- `TL.XPKT`, past its channel check. -/
  | xpkt
deriving DecidableEq, Repr

/-! ### The machine's state -/

/-- Everything the spec gives the machine, with the model's own fields (INVENTORY.md, State). -/
structure State where
  /-- The standalone encoder (R21). -/
  enc : Encoder
  /-- The standalone decoder (R21). -/
  dec : Decoder
  /-- The transact unit. -/
  txn : Transact
  /-- The environment. -/
  env : Environment
  /-- The blocking call in progress, if any. -/
  call : Option Call
  /-- The host's pending inputs, the next one first (log entry 1). -/
  host : List HostInput
  /-- The outcome port: the outcome of the operation that ended last (R47; log entry 9). -/
  res : Option Res
deriving DecidableEq, Repr

/-- Why the machine stops with a fault. -/
inductive Fault where
  /-- Raised by a push into a decoder whose state register holds the transient code 9 or 10 between operations (U2a:
  "`fault` if a bit-level model finds one"). Safe: the spec says it never happens. -/
  | transientDecoderState
deriving DecidableEq, Repr

/-- Why an operation is given no step (`60_exceptions.md` R281). Every refusal is safe: the operation is not enabled. -/
inductive Refusal where
  /-- Raised by an arm of `exec` whose instruction has no meaning yet; no arm raises it in this model. Safe. -/
  | notModelled (mnemonic : String)
  /-- Raised by `step` when the host's request is no row of the table: U1 for an unassigned operation code, log entry 20 (DESIGN
  CHOICE) for a CTRL, START or FRAME pattern. Safe. -/
  | undecodable (e : DecodeError)
  /-- Raised by `CH.ISZERO` and `TL.MKFRAME` on a value of 64 or more where a `Channel` is required (U2). Safe. -/
  | notAChannel (byte : Byte)
  /-- Raised by `TXN.START`, `TXN.RUN` and `TL.XPKT` while an exchange is in progress (U3). Safe. -/
  | exchangeInProgress
  /-- Raised by `TXN.START`, `TXN.RUN` and `TL.XPKT` on `timeout_us` = 2^64 - 1 (U4). Safe. -/
  | timeoutNotAdmitted
  /-- Raised by `TXN.STEP` in phase `Idle` or `Done` (U5). Safe. -/
  | noExchangeInProgress
  /-- Raised where a `StartByte` is required and the byte is no start byte (U6). Safe. -/
  | notAStartByte (byte : Byte)
deriving DecidableEq, Repr

/-- What one operation, or one step, answers. -/
abbrev StepOutcome := Host.Outcome State Fault Refusal

/-! ### Named updates of the state -/

/-- The state with another standalone encoder. -/
def State.withEnc (s : State) (e : Encoder) : State := { s with enc := e }

/-- The state with another standalone decoder. -/
def State.withDec (s : State) (d : Decoder) : State := { s with dec := d }

/-- The state with other transact registers. -/
def State.withTxn (s : State) (t : Transact) : State := { s with txn := t }

/-- The state with another environment. -/
def State.withEnv (s : State) (v : Environment) : State := { s with env := v }

/-- The state with another blocking call, or none. -/
def State.withCall (s : State) (c : Option Call) : State := { s with call := c }

/-- The state with other pending inputs. -/
def State.withHost (s : State) (h : List HostInput) : State := { s with host := h }

/-- The state with an outcome on the port `res`. -/
def State.withRes (s : State) (r : Option Res) : State := { s with res := r }

/-! ### Reset -/

/-- The four payload registers after reset. DESIGN CHOICE (log entry 4), unsafe: R40 says "unspecified". -/
def Payload.reset : Payload := ⟨0x00#8, 0x00#8, 0x00#8, 0x00#8⟩

/-- An encoder instance after reset (R40, R48): `Finished`, `dup` 0; the latch is DESIGN CHOICE (log entry 4), unsafe. -/
def Encoder.reset : Encoder := { state := .finished, dup := false, start := .stx, pl := Payload.reset }

/-- A decoder instance after reset (R40, R48): `InitialEsc`, `esc_pend` 0; the rest is DESIGN CHOICE (log entry 4), unsafe. -/
def Decoder.reset : Decoder := { state := .initialEsc, escPend := false, start := .stx, buf := Payload.reset }

/-- The transact unit after reset (R40, R48); `timeout` is DESIGN CHOICE (log entry 4), unsafe. -/
def Transact.reset : Transact :=
  { phase := .idle, timeout := 0#64, elapsed := 0#64, result := none, enc := Encoder.reset, dec := Decoder.reset }

/-- The environment of a machine just reset: both logs empty (`95_test_vectors.md` part 3); the model's own fields are
DESIGN CHOICE (log entries 3, 15). -/
def Environment.reset : Environment := { txlog := [], delays := 0, trace := [], answers := [], draws := 0 }

/-- The machine right after reset (R48): the registers of R40, nothing pending, no outcome yet. -/
def State.reset : State :=
  { enc := Encoder.reset, dec := Decoder.reset, txn := Transact.reset, env := Environment.reset,
    call := none, host := [], res := none }

end Sys2Proof.Machine
end

