-- ==== Sys2Proof/Machine/Operands.lean ====
section
/-! DEFINITION. The operand forms: from raw port values to the typed operands of the rules and back (`10_state.md` R23 to
R28, R47; `30_encoding.md` R100 to R103). -/

namespace Sys2Proof.Machine

/-- The 8-bit value of a start byte (R23, R91). -/
def startValue : StartByte → Byte
  | .stx => Config.stx
  | .ack => Config.ack
  | .nack => Config.nack

/-- The start byte a raw byte stands for, if it is one of the three legal values (R23). -/
def startOf (b : Byte) : Option StartByte :=
  if b = Config.stx then some .stx
  else if b = Config.ack then some .ack
  else if b = Config.nack then some .nack
  else none

/-- The start byte field of a frame operand: bits 39:32 (R25). -/
def frameStartField (w : BitVec 40) : Byte := w.extractLsb' 32 8

/-- The payload of a frame operand: `payload[0]` in bits 31:24, `payload[3]` in bits 7:0 (R25). -/
def framePayload (w : BitVec 40) : Payload :=
  ⟨w.extractLsb' 24 8, w.extractLsb' 16 8, w.extractLsb' 8 8, w.extractLsb' 0 8⟩

/-- The frame a 40-bit operand carries, if its start byte is legal (R25, U6). -/
def unpackFrame (w : BitVec 40) : Option Frame :=
  (startOf (frameStartField w)).map fun st => ⟨st, framePayload w⟩

/-- The 40-bit packing of a frame (R25). -/
def packFrame (f : Frame) : BitVec 40 :=
  startValue f.start ++ f.payload.d0 ++ f.payload.d1 ++ f.payload.d2 ++ f.payload.d3

/-- `Channel::from(u8)`: fails on 64 or more, else the low six bits (R26, R226). -/
def channelOf (b : Byte) : Option Channel :=
  if b.toNat < 64 then some (b.extractLsb' 0 6) else none

/-- The message a (kind, waddr, arg16) triple stands for; the argument is ignored for GetWord (R28, R101). -/
def messageOf (k : Kind) (waddr : Byte) (arg : Word) : CmppMessage :=
  if k = Config.kindGetWord then .getWord waddr
  else if k = Config.kindResetBitmask then .resetBitmask waddr arg
  else if k = Config.kindSetBitmask then .setBitmask waddr arg
  else .setWord waddr arg

/-- The kind of a message (R101). -/
def messageKind : CmppMessage → Kind
  | .getWord _ => Config.kindGetWord
  | .setWord _ _ => Config.kindSetWord
  | .setBitmask _ _ => Config.kindSetBitmask
  | .resetBitmask _ _ => Config.kindResetBitmask

/-- The word address of a message (R28). -/
def messageWaddr : CmppMessage → Byte
  | .getWord w => w
  | .setWord w _ => w
  | .setBitmask w _ => w
  | .resetBitmask w _ => w

/-- The 16-bit argument of a message, 0 for GetWord (R102, R231). -/
def messageArg : CmppMessage → Word
  | .getWord _ => 0#16
  | .setWord _ a => a
  | .setBitmask _ a => a
  | .resetBitmask _ a => a

/-- The low byte of a Word16 (R103). -/
def lowByte (w : Word) : Byte := w.extractLsb' 0 8

/-- The high byte of a Word16 (R103). -/
def highByte (w : Word) : Byte := w.extractLsb' 8 8

/-- Word16 assembly from a low and a high byte (R103). -/
def joinBytes (low high : Byte) : Word := high ++ low

/-- Bit addressing of a Word16: positions 0 to 7 in the low byte, 8 to 15 in the high byte after subtracting 8 (R230). -/
def wordBit (w : Word) (pos : BitVec 4) : Bool :=
  if pos.toNat ≤ 7 then (lowByte w).getLsbD pos.toNat else (highByte w).getLsbD (pos.toNat - 8)

/-- Payload byte 0 of a message frame: the direction code OR'd with the channel (R100, R231). -/
def packByte0 (k : Kind) (c : Channel) : Byte := (k.setWidth 8 <<< 6) ||| c.setWidth 8

/-- The message kind in payload byte 0: bits 7:6 (R236). -/
def byte0Kind (b : Byte) : Kind := b.extractLsb' 6 2

/-- The channel in payload byte 0: bits 5:0 (R236). -/
def byte0Channel (b : Byte) : Channel := b.extractLsb' 0 6

/-- The payload of a message for a channel: R102. -/
def messagePayload (c : Channel) (m : CmppMessage) : Payload :=
  ⟨packByte0 (messageKind m) c, messageWaddr m, lowByte (messageArg m), highByte (messageArg m)⟩

/-- `make_frame`: always of master origin (R231, R220). -/
def makeFrame (c : Channel) (m : CmppMessage) : Frame := ⟨.stx, messagePayload c m⟩

end Sys2Proof.Machine
end

