-- ==== Sys2Proof/Machine/Flags.lean ====
section
/-! DEFINITION. The numeric codes the spec labels states and errors with (`10_state.md` R31 to R33, `60_exceptions.md`
R273). There are no condition codes (R36); the two flag bits `E.dup` and `D.esc_pend` are registers of State. No rule and
no meaning of the model depends on a code's value. -/

namespace Sys2Proof.Machine

/-- The 4-bit code of an encoder state (R31). -/
def encStateCode : EncState → BitVec 4
  | .waitingFirstEsc => 0#4
  | .waitingStartByte => 1#4
  | .waitingData0 => 2#4
  | .waitingData1 => 3#4
  | .waitingData2 => 4#4
  | .waitingData3 => 5#4
  | .waitingFinalEsc => 6#4
  | .waitingEtx => 7#4
  | .waitingChecksum => 8#4
  | .finished => 9#4

/-- The 4-bit code of a decoder state (R32). -/
def decStateCode : DecState → BitVec 4
  | .initialEsc => 0#4
  | .startByte => 1#4
  | .directionAndChannel => 2#4
  | .command => 3#4
  | .dataLow => 4#4
  | .dataHigh => 5#4
  | .finalEsc => 6#4
  | .etxByte => 7#4
  | .checksum => 8#4
  | .successful => 9#4
  | .error => 10#4

/-- The 2-bit code of a phase (R33). -/
def phaseCode : Phase → BitVec 2
  | .idle => 0#2
  | .send => 1#2
  | .poll => 2#2
  | .done => 3#2

/-- Code and info of a segment error (R273): codes 1 to 5, the carried value zero-extended. DESIGN CHOICE (log entry 22), unsafe,
here and in the functions below: the code has 4 bits, and the info is 0 where R273's table has a dash. -/
def segmentErrorBits : SegmentError → BitVec 4 × BitVec 64
  | .invalidStartByte b => (1#4, b.setWidth 64)
  | .bufferOverFlow => (2#4, 0#64)
  | .expectedEtxOrEscDupButFoundOtherThing b => (3#4, b.setWidth 64)
  | .checksumIsEscButNotDuplicated => (4#4, 0#64)
  | .invalidChecksum e r => (5#4, (e ++ r).setWidth 64)

/-- Code and info of a datalink error (R273): the wrapping has no code of its own. -/
def datalinkErrorBits : DatalinkError → BitVec 4 × BitVec 64
  | .segment e => segmentErrorBits e
  | .receptionTimeout t => (6#4, t)

/-- Code and info of a transport error (R273); the info 0 of `InvalidChannel` is log entry 22, DESIGN CHOICE. -/
def transportErrorBits : TransportError → BitVec 4 × BitVec 64
  | .invalidChannel => (7#4, 0#64)
  | .datalink e => datalinkErrorBits e

/-- Code and info of a refinement failure (R273); the info 0 is log entry 22, DESIGN CHOICE. -/
def refinementErrorBits : RefinementError → BitVec 4 × BitVec 64
  | .notMasterStartByte => (8#4, 0#64)
  | .notSlaveStartByte => (9#4, 0#64)
  | .notSlaveFrame => (10#4, 0#64)

/-- Code and info of the error of a result; code 0 for a success (R273), with info 0 (log entry 22, DESIGN CHOICE). -/
def errorBitsOf {ε α : Type} (bits : ε → BitVec 4 × BitVec 64) : Except ε α → BitVec 4 × BitVec 64
  | .ok _ => (0#4, 0#64)
  | .error e => bits e

/-- Code and info of one push verdict (R273); the info 0 of code 0 is log entry 22, DESIGN CHOICE. -/
def pushErrorBits : PushOutcome → BitVec 4 × BitVec 64
  | .more => (0#4, 0#64)
  | .frame _ => (0#4, 0#64)
  | .err e => segmentErrorBits e

/-- Code and info of the outcome on the port `res` (R273): code 0 when it is no error, with info 0 (log entry 22, DESIGN
CHOICE). For the verdicts of a `FRAME` row it is that of the last byte (log entry 7). -/
def resErrorBits : Res → BitVec 4 × BitVec 64
  | .nothing => (0#4, 0#64)
  | .byte _ => (0#4, 0#64)
  | .nextByte _ => (0#4, 0#64)
  | .push o => pushErrorBits o
  | .pushes os => pushErrorBits (os.getLastD .more)
  | .exchange o => errorBitsOf datalinkErrorBits o
  | .transport o => errorBitsOf transportErrorBits o
  | .startByte o => errorBitsOf segmentErrorBits o
  | .masterStartByte o => errorBitsOf refinementErrorBits o
  | .slaveStartByte o => errorBitsOf refinementErrorBits o
  | .slaveFrame o => errorBitsOf refinementErrorBits o
  | .channel o => errorBitsOf (fun _ => (7#4, 0#64)) o
  | .isZero _ => (0#4, 0#64)
  | .bytePair _ _ => (0#4, 0#64)
  | .word _ => (0#4, 0#64)
  | .bit _ => (0#4, 0#64)
  | .frame _ => (0#4, 0#64)
  | .kindChannel _ _ => (0#4, 0#64)

end Sys2Proof.Machine
end

