-- ==== Sys2Proof/Machine/Ops.lean ====
section
/-! DEFINITION. The shared operations: the checksum, one encoder instance, one decoder instance, the wire form, the calls to
the environment, the transact unit, and how an operation ends (`20_memory.md`, `40_checksum.md` to `43_transact.md`,
`60_exceptions.md` R262). -/

namespace Sys2Proof.Machine

/-! ### How an operation ends

The engine has no trap: taking an error (R262, `raise X(info)`) is ending the operation with the error as its outcome, after
the writes its rule lists; there is no saved context, no handler and no return (R277, R279). -/

/-- The operation ends with outcome `r` on the port `res` (R14 `return`, R262 `raise`; R47). -/
def endWith (r : Res) (s : State) : StepOutcome := .next (s.withRes (some r))

/-- Continue with `f` where an answer is a next state; a fault or a refusal stays. -/
def thenDo (f : State → State) : StepOutcome → StepOutcome
  | .next s => .next (f s)
  | .fault e => .fault e
  | .refused e => .refused e

/-- Run `k` on the frame a 40-bit operand carries; an illegal start byte is refused (U6). -/
def withFrameOperand (w : BitVec 40) (k : Frame → StepOutcome) : StepOutcome :=
  match unpackFrame w with
  | some f => k f
  | none => .refused (.notAStartByte (frameStartField w))

/-- Run `k` on the start byte a raw byte stands for; an illegal one is refused (U6). -/
def withStartOperand (b : Byte) (k : StartByte → StepOutcome) : StepOutcome :=
  match startOf b with
  | some st => k st
  | none => .refused (.notAStartByte b)

/-- Run `k` on the `Channel` a byte carries; a value of 64 or more is refused (U2). -/
def withChannelOperand (b : Byte) (k : Channel → StepOutcome) : StepOutcome :=
  match channelOf b with
  | some c => k c
  | none => .refused (.notAChannel b)

/-! ### CHK -/

/-- `checksum(s, p)`: the sum of start byte, payload and `ETX` with 8-bit wrap-around, negated (R130, R132). -/
def checksum (s : Byte) (p : Payload) : Byte := -(s + p.d0 + p.d1 + p.d2 + p.d3 + Config.etx)

/-- The checksum of a frame (R131). -/
def frameChecksum (f : Frame) : Byte := checksum (startValue f.start) f.payload

/-! ### The wire form -/

/-- A stuffable byte on the wire: 0x1B is doubled, any other byte is itself (R95). -/
def stuff (b : Byte) : List Byte := if b = Config.esc then [Config.esc, Config.esc] else [b]

/-- The physical form of a logical wire form with start byte, payload and checksum byte (R92, R95, R97). -/
def physicalForm (start : Byte) (p : Payload) (chk : Byte) : List Byte :=
  [Config.esc, start] ++ stuff p.d0 ++ stuff p.d1 ++ stuff p.d2 ++ stuff p.d3 ++ [Config.esc, Config.etx] ++ stuff chk

/-- The physical wire form of a frame (R92, R94, R97). -/
def wireForm (f : Frame) : List Byte := physicalForm (startValue f.start) f.payload (frameChecksum f)

/-! ### ENC, over an encoder instance -/

/-- `ENC.LOAD f` on an instance (R141). -/
def encoderLoad (f : Frame) : Encoder :=
  { state := .waitingFirstEsc, dup := false, start := f.start, pl := f.payload }

/-- Emitting the stuffable byte `v` and going on to `next` (R145, R148): 0x1B is emitted twice, `E.dup` telling the first
emission from the second. -/
def emitStuffed (v : Byte) (next : EncState) (e : Encoder) : Option Byte × Encoder :=
  if v ≠ Config.esc then (some v, { e with state := next })
  else if e.dup = false then (some Config.esc, { e with dup := true })
  else (some Config.esc, { e with dup := false, state := next })

/-- `ENC.NEXT` on an instance (R142 to R149). -/
def encoderNext (e : Encoder) : Option Byte × Encoder :=
  match e.state with
  | .waitingFirstEsc => (some Config.esc, { e with state := .waitingStartByte })
  | .waitingStartByte => (some (startValue e.start), { e with state := .waitingData0 })
  | .waitingData0 => emitStuffed e.pl.d0 .waitingData1 e
  | .waitingData1 => emitStuffed e.pl.d1 .waitingData2 e
  | .waitingData2 => emitStuffed e.pl.d2 .waitingData3 e
  | .waitingData3 => emitStuffed e.pl.d3 .waitingFinalEsc e
  | .waitingFinalEsc => (some Config.esc, { e with state := .waitingEtx })
  | .waitingEtx => (some Config.etx, { e with state := .waitingChecksum })
  | .waitingChecksum => emitStuffed (checksum (startValue e.start) e.pl) .finished e
  | .finished => (none, e)

/-- The outcomes of `n` successive `ENC.NEXT` and the encoder they leave. -/
def encoderTake : Nat → Encoder → List (Option Byte) × Encoder
  | 0, e => ([], e)
  | n + 1, e => ((encoderNext e).1 :: (encoderTake n (encoderNext e).2).1, (encoderTake n (encoderNext e).2).2)

/-! ### DEC, over a decoder instance -/

/-- `reset(D)` and `DEC.INIT` (R161, R169): two writes; `D.start` and `D.buf` keep their contents (D15, log entry 13). -/
def decoderInit (d : Decoder) : Decoder := { d with state := .initialEsc, escPend := false }

/-- A pushed byte in a payload-byte state (R164): `put v` is the decoder with `D.buf[k]` written. -/
def pushData (put : Byte → Decoder) (next : DecState) (b : Byte) (d : Decoder) : PushOutcome × Decoder :=
  if d.escPend = false then
    if b = Config.esc then (.more, { d with escPend := true })
    else (.more, { put b with state := next })
  else if b = Config.esc then (.more, { put Config.esc with escPend := false, state := next })
  else (.err .checksumIsEscButNotDuplicated, decoderInit d)

/-- `compare(r)`, the checksum validator (R168, R134). -/
def compareChecksum (r : Byte) (d : Decoder) : PushOutcome × Decoder :=
  if checksum (startValue d.start) d.buf = r then (.frame ⟨d.start, d.buf⟩, decoderInit d)
  else (.err (.invalidChecksum (checksum (startValue d.start) d.buf) r), decoderInit d)

/-- A pushed byte in state `Checksum` (R167). -/
def pushChecksum (b : Byte) (d : Decoder) : PushOutcome × Decoder :=
  if d.escPend = false then
    if b = Config.esc then (.more, { d with escPend := true })
    else compareChecksum b d
  else if b = Config.esc then compareChecksum Config.esc d
  else (.err .checksumIsEscButNotDuplicated, decoderInit d)

/-- A pushed byte in state `StartByte` (R163). -/
def pushStartByte (b : Byte) (d : Decoder) : PushOutcome × Decoder :=
  match startOf b with
  | some st => (.more, { d with start := st, state := .directionAndChannel })
  | none => (.err (.invalidStartByte b), decoderInit d)

/-- A pushed byte in state `EtxByte` (R166). -/
def pushEtxByte (b : Byte) (d : Decoder) : PushOutcome × Decoder :=
  if b = Config.etx then (.more, { d with state := .checksum })
  else if b = Config.esc then (.err .bufferOverFlow, decoderInit d)
  else (.err (.expectedEtxOrEscDupButFoundOtherThing b), decoderInit d)

/-- `DEC.PUSH b` on an instance (R160, R162 to R168): one byte, one verdict (R171). A transient state found in the register
is the one fault (U2a, log entry 12). -/
def decoderPush (b : Byte) (d : Decoder) : Except Fault (PushOutcome × Decoder) :=
  match d.state with
  | .initialEsc => .ok (if b = Config.esc then (.more, { d with state := .startByte }) else (.more, d))
  | .startByte => .ok (pushStartByte b d)
  | .directionAndChannel => .ok (pushData (fun v => { d with buf := { d.buf with d0 := v } }) .command b d)
  | .command => .ok (pushData (fun v => { d with buf := { d.buf with d1 := v } }) .dataLow b d)
  | .dataLow => .ok (pushData (fun v => { d with buf := { d.buf with d2 := v } }) .dataHigh b d)
  | .dataHigh => .ok (pushData (fun v => { d with buf := { d.buf with d3 := v } }) .finalEsc b d)
  | .finalEsc =>
    .ok (if b = Config.esc then (.more, { d with state := .etxByte }) else (.err .bufferOverFlow, decoderInit d))
  | .etxByte => .ok (pushEtxByte b d)
  | .checksum => .ok (pushChecksum b d)
  | .successful => .error .transientDecoderState
  | .error => .error .transientDecoderState

/-- The verdicts on successive pushed bytes, and the decoder they leave (R171: one verdict a byte, in order). -/
def decoderPushAll : List Byte → Decoder → Except Fault (List PushOutcome × Decoder)
  | [], d => .ok ([], d)
  | b :: bs, d =>
    match decoderPush b d with
    | .error e => .error e
    | .ok (o, d1) =>
      match decoderPushAll bs d1 with
      | .error e => .error e
      | .ok (os, d2) => .ok (o :: os, d2)

/-- A byte reaches the standalone decoder (`DEC.PUSH` on `dec`, R160). -/
def pushStandalone (b : Byte) (s : State) : StepOutcome :=
  match decoderPush b s.dec with
  | .error e => .fault e
  | .ok (o, d) => endWith (.push o) (s.withDec d)

/-- The physical form of a logical wire form reaches the standalone decoder, byte by byte (R92, R95, R177; log entry 7). -/
def receiveFrame (start : Byte) (p : Payload) (chk : Byte) (s : State) : StepOutcome :=
  match decoderPushAll (physicalForm start p chk) s.dec with
  | .error e => .fault e
  | .ok (os, d) => endWith (.pushes os) (s.withDec d)

/-! ### The calls to the environment -/

/-- `ConnTransmit(b)`: appends to `env.txlog`; it always completes (R62, U9, log entry 16). -/
def connTransmit (b : Byte) (v : Environment) : Environment :=
  { v with txlog := v.txlog ++ [b], trace := v.trace ++ [.transmit b] }

/-- `DelayUs(n)`: adds one call to `env.delays` (R66). -/
def delayUs (n : Nat) (v : Environment) : Environment :=
  { v with delays := v.delays + 1, trace := v.trace ++ [.delay n] }

/-- The free answer of the n-th draw (R63, R64, U8; log entry 3). -/
def freeAnswer (n : Nat) : PollAnswer :=
  if Config.connReady n then .byte (Config.connReceive n) else .idle

/-- The answer the environment gives to the next poll, and the environment without it: first those already fixed, then free
ones (log entry 3). -/
def nextAnswer (v : Environment) : PollAnswer × Environment :=
  match v.answers with
  | a :: rest => (a, { v with answers := rest })
  | [] => (freeAnswer v.draws, { v with draws := v.draws + 1 })

/-- The calls one poll makes: `ConnReady()`, and `ConnReceive()` only after it answered true (R63, R64, R76 (c)). -/
def pollCalls : PollAnswer → List EnvCall
  | .idle => [.ready false]
  | .byte b => [.ready true, .receive b]

/-- `ConnReady()` and, if it answers true, `ConnReceive()` (R196, R198: readiness first). -/
def connPoll (v : Environment) : PollAnswer × Environment :=
  ((nextAnswer v).1, { (nextAnswer v).2 with trace := v.trace ++ pollCalls (nextAnswer v).1 })

/-! ### TXN -/

/-- The registers `TXN.START f, t` leaves (R191). -/
def startedTransact (f : Frame) (t : Micros) (x : Transact) : Transact :=
  { phase := .send, timeout := t, elapsed := 0#64, result := none, enc := encoderLoad f, dec := decoderInit x.dec }

/-- `TXN.START f, t` with its preconditions (R191, R192; U3, U4), its outcome not yet on the port. -/
def transactStart (f : Frame) (t : Micros) (s : State) : StepOutcome :=
  if s.txn.phase = .send ∨ s.txn.phase = .poll then .refused .exchangeInProgress
  else if t = Config.timeoutNotAdmitted then .refused .timeoutNotAdmitted
  else .next (s.withTxn (startedTransact f t s.txn))

/-- One step of phase `Send` (R195). -/
def stepSend (s : State) : StepOutcome :=
  match encoderNext s.txn.enc with
  | (some b, e) => .next ((s.withTxn { s.txn with enc := e }).withEnv (connTransmit b s.env))
  | (none, e) => .next (s.withTxn { s.txn with enc := e, phase := .poll })

/-- The registers after a received byte's verdict (R196). -/
def afterVerdict (o : PushOutcome) (d : Decoder) (x : Transact) : Transact :=
  match o with
  | .more => { x with dec := d }
  | .frame g => { x with dec := d, result := some (.ok ⟨g, x.elapsed⟩), phase := .done }
  | .err e => { x with dec := d, result := some (.error (.segment e)), phase := .done }

/-- The registers after an idle poll (R197): count, then test, strictly greater. -/
def afterIdlePoll (x : Transact) : Transact :=
  if x.timeout < x.elapsed + 1#64 then
    { x with elapsed := x.elapsed + 1#64, result := some (.error (.receptionTimeout (x.elapsed + 1#64))), phase := .done }
  else { x with elapsed := x.elapsed + 1#64 }

/-- One step of phase `Poll` (R196, R197, R198). -/
def stepPoll (s : State) : StepOutcome :=
  match connPoll s.env with
  | (.byte b, v) =>
    match decoderPush b s.txn.dec with
    | .error e => .fault e
    | .ok (o, d) => .next ((s.withTxn (afterVerdict o d s.txn)).withEnv v)
  | (.idle, v) => .next ((s.withTxn (afterIdlePoll s.txn)).withEnv (delayUs Config.pollDelayUs v))

/-- `TXN.STEP` (R193), its outcome not yet on the port; refused outside an exchange (U5). -/
def transactStep (s : State) : StepOutcome :=
  match s.txn.phase with
  | .idle => .refused .noExchangeInProgress
  | .send => stepSend s
  | .poll => stepPoll s
  | .done => .refused .noExchangeInProgress

/-- The outcome a blocking call returns for the exchange's outcome: `TXN.RUN` returns it (R199), `TL.XPKT` wraps its error
(R237, R271). -/
def callOutcome : Call → ExchangeOutcome → Res
  | .run, r => .exchange r
  | .xpkt, .ok r => .transport (.ok r)
  | .xpkt, .error e => .transport (.error (.datalink e))

/-- The blocking call returns once the exchange is `Done` (R199). -/
def finishCall (c : Call) (s : State) : State :=
  match s.txn.phase, s.txn.result with
  | .done, some r => (s.withCall none).withRes (some (callOutcome c r))
  | _, _ => s

/-- One step of a blocking call in progress: one `TXN.STEP`, and the return if that ended the exchange (R199; log entry 5). -/
def advanceCall (c : Call) (s : State) : StepOutcome := thenDo (finishCall c) (transactStep s)

/-- A blocking call begins: `TXN.START`, with the caller then held until the exchange is `Done` (R199; log entry 5). -/
def beginCall (c : Call) (f : Frame) (t : Micros) (s : State) : StepOutcome :=
  thenDo (fun s1 => s1.withCall (some c)) (transactStart f t s)

/-! ### Reset -/

/-- The reset event (R48, R301; log entry 14): the registers of R40 take their reset values, the environment is not touched. -/
def resetEvent (s : State) : State :=
  ((s.withEnc Encoder.reset).withDec Decoder.reset).withTxn Transact.reset

end Sys2Proof.Machine
end

