-- ==== Sys2Proof/Machine/Chk.lean ====
section
/-! DEFINITION. The CHK unit (`40_checksum.md`). -/

namespace Sys2Proof.Machine

/-- `CHK.CALC f -> byte` (R131): total over all frames, no register written. -/
def execChkCalc (w : BitVec 40) (s : State) : StepOutcome :=
  withFrameOperand w fun f => endWith (.byte (frameChecksum f)) s

end Sys2Proof.Machine
end

