-- ==== Sys2Proof/Machine/Dec.lean ====
section
/-! DEFINITION. The DEC unit on its standalone instance (`42_decoder.md`). -/

namespace Sys2Proof.Machine

/-- `DEC.INIT` (R161): accepted in every decoder state. -/
def execDecInit (s : State) : StepOutcome := endWith .nothing (s.withDec (decoderInit s.dec))

/-- `DEC.PUSH b -> More | Frame(f) | Err(SegmentError)` (R160). -/
def execDecPush (b : Byte) (s : State) : StepOutcome := pushStandalone b s

end Sys2Proof.Machine
end

