-- ==== Sys2Proof/Machine/Enc.lean ====
section
/-! DEFINITION. The ENC unit on its standalone instance (`41_encoder.md`). -/

namespace Sys2Proof.Machine

/-- `ENC.LOAD f` (R141): accepted in every encoder state. -/
def execEncLoad (w : BitVec 40) (s : State) : StepOutcome :=
  withFrameOperand w fun f => endWith .nothing (s.withEnc (encoderLoad f))

/-- `ENC.NEXT -> Option<byte>` (R142 to R149). -/
def execEncNext (s : State) : StepOutcome :=
  endWith (.nextByte (encoderNext s.enc).1) (s.withEnc (encoderNext s.enc).2)

end Sys2Proof.Machine
end

