-- ==== Sys2Proof/Machine/Msg.lean ====
section
/-! DEFINITION. The rows of format MSG: each is the master frame of its message (`44_transport.md` R231 to R235; log
entry 8). -/

namespace Sys2Proof.Machine

/-- `GETWORD`: kind 0, the argument ignored (R232, R28). -/
def execGetword (c : Channel) (w : Byte) (_ : Word) (s : State) : StepOutcome :=
  endWith (.frame (makeFrame c (.getWord w))) s

/-- `RESETBITMASK`: kind 1 (R235). -/
def execResetbitmask (c : Channel) (w : Byte) (a : Word) (s : State) : StepOutcome :=
  endWith (.frame (makeFrame c (.resetBitmask w a))) s

/-- `SETBITMASK`: kind 2 (R234). -/
def execSetbitmask (c : Channel) (w : Byte) (a : Word) (s : State) : StepOutcome :=
  endWith (.frame (makeFrame c (.setBitmask w a))) s

/-- `SETWORD`: kind 3 (R233). -/
def execSetword (c : Channel) (w : Byte) (a : Word) (s : State) : StepOutcome :=
  endWith (.frame (makeFrame c (.setWord w a))) s

end Sys2Proof.Machine
end

