-- ==== Sys2Proof/Machine/Tl.lean ====
section
/-! DEFINITION. The TL unit (`44_transport.md`): pure operations, and `TL.XPKT`. -/

namespace Sys2Proof.Machine

/-- `SB.FROM raw` (R222). -/
def execSbFrom (b : Byte) (s : State) : StepOutcome :=
  match startOf b with
  | some st => endWith (.startByte (.ok st)) s
  | none => endWith (.startByte (.error (.invalidStartByte b))) s

/-- The conversion to `MasterStartByte` (R223). -/
def toMaster : StartByte → Except RefinementError MasterStartByte
  | .stx => .ok .stx
  | .ack => .error .notMasterStartByte
  | .nack => .error .notMasterStartByte

/-- The conversion to `SlaveStartByte` (R224). -/
def toSlave : StartByte → Except RefinementError SlaveStartByte
  | .stx => .error .notSlaveStartByte
  | .ack => .ok .ack
  | .nack => .ok .nack

/-- The conversion to `SlaveFrame` (R225): the payload is not looked at. -/
def toSlaveFrame (f : Frame) : Except RefinementError SlaveFrame :=
  match f.start with
  | .stx => .error .notSlaveFrame
  | .ack => .ok ⟨.ack, f.payload⟩
  | .nack => .ok ⟨.nack, f.payload⟩

/-- `SB.TOMASTER sb` (R223). -/
def execSbTomaster (b : Byte) (s : State) : StepOutcome :=
  withStartOperand b fun st => endWith (.masterStartByte (toMaster st)) s

/-- `SB.TOSLAVE sb` (R224). -/
def execSbToslave (b : Byte) (s : State) : StepOutcome :=
  withStartOperand b fun st => endWith (.slaveStartByte (toSlave st)) s

/-- `FR.TOSLAVE f` (R225). -/
def execFrToslave (w : BitVec 40) (s : State) : StepOutcome :=
  withFrameOperand w fun f => endWith (.slaveFrame (toSlaveFrame f)) s

/-- `CH.FROM raw` (R226). -/
def execChFrom (b : Byte) (s : State) : StepOutcome :=
  match channelOf b with
  | some c => endWith (.channel (.ok c)) s
  | none => endWith (.channel (.error .invalidChannel)) s

/-- `CH.ISZERO c` (R227). -/
def execChIszero (b : Byte) (s : State) : StepOutcome :=
  withChannelOperand b fun c => endWith (.isZero (c == 0#6)) s

/-- `W16.SPLIT w` (R228). -/
def execW16Split (w : Word) (s : State) : StepOutcome := endWith (.bytePair (lowByte w) (highByte w)) s

/-- `W16.JOIN low, high`, the two bytes carried on the port as high byte, low byte (R229). -/
def execW16Join (w : Word) (s : State) : StepOutcome := endWith (.word (joinBytes (lowByte w) (highByte w))) s

/-- `W16.BIT w, pos` (R230). -/
def execW16Bit (w : Word) (pos : BitVec 4) (s : State) : StepOutcome := endWith (.bit (wordBit w pos)) s

/-- `TL.MKFRAME c, m` (R231). -/
def execTlMkframe (b : Byte) (k : Kind) (waddr : Byte) (arg : Word) (s : State) : StepOutcome :=
  withChannelOperand b fun c => endWith (.frame (makeFrame c (messageOf k waddr arg))) s

/-- `PL.SPLIT0 b0` (R236). -/
def execPlSplit0 (b : Byte) (s : State) : StepOutcome := endWith (.kindChannel (byte0Kind b) (byte0Channel b)) s

/-- `TL.XPKT c_raw, m, t` (R237): the channel is checked first, before any other effect (R276 (a)); then the exchange runs
as a blocking call whose errors are wrapped (log entry 5). -/
def execTlXpkt (b : Byte) (k : Kind) (waddr : Byte) (arg : Word) (t : Micros) (s : State) : StepOutcome :=
  match channelOf b with
  | none => endWith (.transport (.error .invalidChannel)) s
  | some c => beginCall .xpkt (makeFrame c (messageOf k waddr arg)) t s

end Sys2Proof.Machine
end

