-- ==== Sys2Proof/Machine/Txn.lean ====
section
/-! DEFINITION. The TXN unit (`43_transact.md`). -/

namespace Sys2Proof.Machine

/-- `TXN.START f, t` (R191, R192). -/
def execTxnStart (w : BitVec 40) (t : Micros) (s : State) : StepOutcome :=
  withFrameOperand w fun f => thenDo (fun s1 => s1.withRes (some .nothing)) (transactStart f t s)

/-- `TXN.STEP` (R193). -/
def execTxnStep (s : State) : StepOutcome := thenDo (fun s1 => s1.withRes (some .nothing)) (transactStep s)

/-- `TXN.RUN f, t` (R199): `TXN.START`, then the steps of the call, one a machine step (log entry 5). -/
def execTxnRun (w : BitVec 40) (t : Micros) (s : State) : StepOutcome :=
  withFrameOperand w fun f => beginCall .run f t s

end Sys2Proof.Machine
end

