-- ==== Sys2Proof/Machine/Wire.lean ====
section
/-! DEFINITION. The rows of formats CTRL, START and FRAME: bytes of the wire form, met by the standalone decoder
(`30_encoding.md` R90 to R98; log entries 6 and 7). -/

namespace Sys2Proof.Machine

/-- `ESC` (R90) reaches the decoder. -/
def execEsc (s : State) : StepOutcome := pushStandalone Config.esc s

/-- `ETX` (R90) reaches the decoder. -/
def execEtx (s : State) : StepOutcome := pushStandalone Config.etx s

/-- `STX` (R91) reaches the decoder. -/
def execStx (s : State) : StepOutcome := pushStandalone Config.stx s

/-- `ACK` (R91) reaches the decoder. -/
def execAck (s : State) : StepOutcome := pushStandalone Config.ack s

/-- `NACK` (R91) reaches the decoder. -/
def execNack (s : State) : StepOutcome := pushStandalone Config.nack s

/-- `FRAME.STX` (R92, R93) reaches the decoder in its physical form. -/
def execFrameStx (d0 d1 d2 d3 k : Byte) (s : State) : StepOutcome := receiveFrame Config.stx ⟨d0, d1, d2, d3⟩ k s

/-- `FRAME.ACK` (R92, R93) reaches the decoder in its physical form. -/
def execFrameAck (d0 d1 d2 d3 k : Byte) (s : State) : StepOutcome := receiveFrame Config.ack ⟨d0, d1, d2, d3⟩ k s

/-- `FRAME.NACK` (R92, R93) reaches the decoder in its physical form. -/
def execFrameNack (d0 d1 d2 d3 k : Byte) (s : State) : StepOutcome := receiveFrame Config.nack ⟨d0, d1, d2, d3⟩ k s

end Sys2Proof.Machine
end

