-- ==== Sys2Proof/Machine/Dispatch.lean ====
section
/-! DEFINITION. The meaning of every row of the opcode table: one direct call an arm. -/

namespace Sys2Proof.Machine

def exec (i : Instr) (s : State) : Host.Outcome State Fault Refusal :=
  match i with
  | .esc => Sys2Proof.Machine.execEsc s
  | .etx => Sys2Proof.Machine.execEtx s
  | .stx => Sys2Proof.Machine.execStx s
  | .ack => Sys2Proof.Machine.execAck s
  | .nack => Sys2Proof.Machine.execNack s
  | .frameStx d0 d1 d2 d3 k => Sys2Proof.Machine.execFrameStx d0 d1 d2 d3 k s
  | .frameAck d0 d1 d2 d3 k => Sys2Proof.Machine.execFrameAck d0 d1 d2 d3 k s
  | .frameNack d0 d1 d2 d3 k => Sys2Proof.Machine.execFrameNack d0 d1 d2 d3 k s
  | .getword c w a => Sys2Proof.Machine.execGetword c w a s
  | .resetbitmask c w a => Sys2Proof.Machine.execResetbitmask c w a s
  | .setbitmask c w a => Sys2Proof.Machine.execSetbitmask c w a s
  | .setword c w a => Sys2Proof.Machine.execSetword c w a s
  | .chkCalc f => Sys2Proof.Machine.execChkCalc f s
  | .encLoad f => Sys2Proof.Machine.execEncLoad f s
  | .encNext => Sys2Proof.Machine.execEncNext s
  | .decInit => Sys2Proof.Machine.execDecInit s
  | .decPush b => Sys2Proof.Machine.execDecPush b s
  | .txnStart f t => Sys2Proof.Machine.execTxnStart f t s
  | .txnStep => Sys2Proof.Machine.execTxnStep s
  | .txnRun f t => Sys2Proof.Machine.execTxnRun f t s
  | .sbFrom b => Sys2Proof.Machine.execSbFrom b s
  | .sbTomaster b => Sys2Proof.Machine.execSbTomaster b s
  | .sbToslave b => Sys2Proof.Machine.execSbToslave b s
  | .frToslave f => Sys2Proof.Machine.execFrToslave f s
  | .chFrom b => Sys2Proof.Machine.execChFrom b s
  | .chIszero b => Sys2Proof.Machine.execChIszero b s
  | .w16Split w => Sys2Proof.Machine.execW16Split w s
  | .w16Join w => Sys2Proof.Machine.execW16Join w s
  | .w16Bit w p => Sys2Proof.Machine.execW16Bit w p s
  | .tlMkframe b k w a => Sys2Proof.Machine.execTlMkframe b k w a s
  | .plSplit0 b => Sys2Proof.Machine.execPlSplit0 b s
  | .tlXpkt b k w a t => Sys2Proof.Machine.execTlXpkt b k w a t s

end Sys2Proof.Machine
end

