-- ==== Sys2Proof/Machine/Step.lean ====
section
/-! DEFINITION. One step of the machine: a blocking call in progress goes on; else the host's next input is taken
(`10_state.md` R20, `43_transact.md` R199; log entries 1 and 5). -/

namespace Sys2Proof.Machine

/-- One step. With a blocking call in progress no input of the host is looked at (R199). Otherwise the next input is taken:
an invocation is decoded and executed, and refused where it is no row of the table (U1; log
entry 20); a reset event resets the registers (R48, R301). With nothing pending the engine is
"simply not running" (R290) and the state stands. -/
def step (s : State) : Host.Outcome State Fault Refusal :=
  match s.call with
  | some c => advanceCall c s
  | none =>
    match s.host with
    | [] => .next s
    | .reset :: rest => .next (resetEvent (s.withHost rest))
    | .invoke r :: rest =>
      match decode r with
      | .error e => .refused (.undecodable e)
      | .ok i => exec i (s.withHost rest)

/-- The state with a word of the opcode table as the host's very next invocation, and no blocking call before it (log entries
1, 2). -/
def State.withFetchWord (s : State) (nbits w : Nat) : State :=
  (s.withCall none).withHost (.invoke (tableRequest nbits w) :: s.host)

end Sys2Proof.Machine
end

