-- ==== Sys2Proof/Safety.lean ====
section
/-! DEFINITION. The terms the statements use: runs of the machine, the invariant of `10_state.md` R46, which registers are
live (R49), and the transition tables of `41_encoder.md` R152 and `42_decoder.md` R170 written row by row. -/

namespace Sys2Proof.Safety

open Sys2Proof.Machine

/-! ### Runs -/

/-- `k` steps of the machine, stopping at the first fault or refusal. -/
def run : Nat → State → StepOutcome
  | 0, s => .next s
  | k + 1, s =>
    match step s with
    | .next t => run k t
    | .fault e => .fault e
    | .refused e => .refused e

/-- The outcomes on the port `res` after each of `k` steps, in order, and the state they leave; it ends early at a fault or a
refusal. -/
def runOutcomes : Nat → State → List (Option Res) × State
  | 0, s => ([], s)
  | k + 1, s =>
    match step s with
    | .next t => (t.res :: (runOutcomes k t).1, (runOutcomes k t).2)
    | .fault _ => ([], s)
    | .refused _ => ([], s)

/-- The host invokes an instruction. -/
def invoking (i : Instr) : HostInput := .invoke (encode i)

/-- The next step runs the instruction `i` for the host: no blocking call is in progress, and the next input decodes to `i`
(log entry 1). -/
abbrev runsNext (s : State) (i : Instr) : Prop :=
  s.call = none ∧ ∃ r rest, s.host = .invoke r :: rest ∧ decode r = .ok i

/-! ### Outcomes that are errors -/

/-- An outcome is an error (R262): `raise` in the rule of its operation. The verdicts on a frame row are judged by the last one
(log entry 7). -/
def isError : Res → Bool
  | .push (.err _) => true
  | .pushes os => match os.getLast? with
    | some (.err _) => true
    | _ => false
  | .exchange (.error _) => true
  | .transport (.error _) => true
  | .startByte (.error _) => true
  | .masterStartByte (.error _) => true
  | .slaveStartByte (.error _) => true
  | .slaveFrame (.error _) => true
  | .channel (.error _) => true
  | _ => false

/-! ### The environment's answers -/

/-- The bytes delivered by a list of poll answers, in order. -/
def bytesOf (as : List PollAnswer) : List Byte :=
  as.filterMap fun a => match a with
    | .idle => none
    | .byte b => some b

/-- The number of idle answers in a list of poll answers. -/
def idleCount (as : List PollAnswer) : Nat := as.countP fun a => a == .idle

/-- The bytes transmitted by a list of calls, in order. -/
def transmitted (cs : List EnvCall) : List Byte :=
  cs.filterMap fun c => match c with
    | .create => none
    | .transmit b => some b
    | .ready _ => none
    | .receive _ => none
    | .delay _ => none

/-- The arguments of the delay calls in a list of calls. -/
def delayArguments (cs : List EnvCall) : List Nat :=
  cs.filterMap fun c => match c with
    | .create => none
    | .transmit _ => none
    | .ready _ => none
    | .receive _ => none
    | .delay n => some n

/-! ### The invariant (R46), each part decidable -/

/-- The stuffable byte an encoder state emits, if it emits one (R95, R145, R148). -/
def stuffableByte (e : Encoder) : Option Byte :=
  match e.state with
  | .waitingData0 => some e.pl.d0
  | .waitingData1 => some e.pl.d1
  | .waitingData2 => some e.pl.d2
  | .waitingData3 => some e.pl.d3
  | .waitingChecksum => some (checksum (startValue e.start) e.pl)
  | .waitingFirstEsc => none
  | .waitingStartByte => none
  | .waitingFinalEsc => none
  | .waitingEtx => none
  | .finished => none

/-- The decoder states that receive a stuffable byte (R35). -/
def destuffing : DecState → Bool
  | .directionAndChannel => true
  | .command => true
  | .dataLow => true
  | .dataHigh => true
  | .checksum => true
  | .initialEsc => false
  | .startByte => false
  | .finalEsc => false
  | .etxByte => false
  | .successful => false
  | .error => false

/-- The two transient decoder states (R32). -/
abbrev transient (d : Decoder) : Prop := d.state = .successful ∨ d.state = .error

/-- R46 (b): a pending duplicate means the state emits a stuffable byte of value 0x1B. -/
abbrev EncoderOk (e : Encoder) : Prop := e.dup = true → stuffableByte e = some 0x1B#8

/-- R46 (a), (c): no transient state is held, and a pending escape means a destuffing state. -/
abbrev DecoderOk (d : Decoder) : Prop := ¬ transient d ∧ (d.escPend = true → destuffing d.state = true)

/-- An exchange is in progress. -/
abbrev exchanging (x : Transact) : Prop := x.phase = .send ∨ x.phase = .poll

/-- What an ended exchange's outcome says of the counter (R200 (b), (c)). -/
def resultOk (x : Transact) : Option ExchangeOutcome → Bool
  | none => true
  | some (.ok r) => decide (r.responseTimeUs = x.elapsed ∧ x.elapsed ≤ x.timeout)
  | some (.error (.segment _)) => decide (x.elapsed ≤ x.timeout)
  | some (.error (.receptionTimeout e)) => decide (e = x.elapsed ∧ e = x.timeout + 1#64)

/-- R46 (f), (g), R37's legal timeouts (at reset by the value of log entry 4), R204's finished encoder, and R200's bounds on an
ended exchange. -/
abbrev TransactOk (x : Transact) : Prop :=
  (x.phase = .done ↔ x.result ≠ none) ∧ (exchanging x → x.elapsed ≤ x.timeout) ∧ x.timeout ≠ Config.timeoutNotAdmitted ∧
  (x.phase = .poll ∨ x.phase = .done → x.enc.state = .finished) ∧ resultOk x x.result = true ∧
  EncoderOk x.enc ∧ DecoderOk x.dec

/-- The logs of R45 are what the calls made add up to, every delay asked for is one microsecond (R66), and the engine has
made no connection (R65). -/
abbrev LogsOk (v : Environment) : Prop :=
  v.txlog = transmitted v.trace ∧ v.delays = (delayArguments v.trace).length ∧ (∀ n ∈ delayArguments v.trace, n = 1) ∧
  EnvCall.create ∉ v.trace

/-- The invariant of the machine: R46 for the four instances and the transact unit, a blocking call only during an exchange
(R199; log entry 5), and the logs (R45). -/
abbrev Inv (s : State) : Prop :=
  EncoderOk s.enc ∧ DecoderOk s.dec ∧ TransactOk s.txn ∧ (s.call ≠ none → exchanging s.txn) ∧ LogsOk s.env

/-! ### Live registers (R49, U7, U7a) -/

/-- Two encoders agree on everything a rule can still read. -/
def SameEncoder (a b : Encoder) : Prop :=
  a.state = b.state ∧ a.dup = b.dup ∧ (a.state ≠ .finished → a.start = b.start ∧ a.pl = b.pl)

/-- Two decoders agree on everything a rule can still read: the start byte once it is received, each payload byte once it
is received. -/
def SameDecoder (a b : Decoder) : Prop :=
  a.state = b.state ∧ a.escPend = b.escPend ∧
  (2 ≤ (decStateCode a.state).toNat → a.start = b.start) ∧
  (3 ≤ (decStateCode a.state).toNat → a.buf.d0 = b.buf.d0) ∧
  (4 ≤ (decStateCode a.state).toNat → a.buf.d1 = b.buf.d1) ∧
  (5 ≤ (decStateCode a.state).toNat → a.buf.d2 = b.buf.d2) ∧
  (6 ≤ (decStateCode a.state).toNat → a.buf.d3 = b.buf.d3)

/-- Two transact units agree on everything a rule can still read: outside an exchange only the phase and the result. -/
def SameTransact (a b : Transact) : Prop :=
  a.phase = b.phase ∧ a.result = b.result ∧
  (exchanging a → a.timeout = b.timeout ∧ a.elapsed = b.elapsed ∧ SameEncoder a.enc b.enc ∧ SameDecoder a.dec b.dec)

/-- Two states agree on everything a rule can still read. -/
def SameLive (a b : State) : Prop :=
  SameEncoder a.enc b.enc ∧ SameDecoder a.dec b.dec ∧ SameTransact a.txn b.txn ∧ a.env = b.env ∧ a.call = b.call ∧
  a.host = b.host ∧ a.res = b.res

/-- Two answers agree: next states that agree on what is live, or the same fault, or the same refusal. -/
def SameAnswer : StepOutcome → StepOutcome → Prop
  | .next a, .next b => SameLive a b
  | .fault a, .fault b => a = b
  | .refused a, .refused b => a = b
  | .next _, .fault _ => False
  | .next _, .refused _ => False
  | .fault _, .next _ => False
  | .fault _, .refused _ => False
  | .refused _, .next _ => False
  | .refused _, .fault _ => False

/-! ### The encoder's transition table, R152 -/

/-- The three rows of a stuffable byte `v`: once if it is not 0x1B, else a first and a second 0x1B told apart by `dup`. -/
def stuffedRow (v : Byte) (next : EncState) (e : Encoder) (o : Option Byte) (e1 : Encoder) : Prop :=
  (v ≠ 0x1B#8 → o = some v ∧ e1 = { e with state := next }) ∧
  (v = 0x1B#8 → e.dup = false → o = some 0x1B#8 ∧ e1 = { e with dup := true }) ∧
  (v = 0x1B#8 → e.dup = true → o = some 0x1B#8 ∧ e1 = { e with dup := false, state := next })

/-- R152, one `ENC.NEXT` from `e` with outcome `o`, leaving `e1`. -/
def encoderRow (e : Encoder) (o : Option Byte) (e1 : Encoder) : Prop :=
  match e.state with
  | .waitingFirstEsc => o = some 0x1B#8 ∧ e1 = { e with state := .waitingStartByte }
  | .waitingStartByte => o = some (startValue e.start) ∧ e1 = { e with state := .waitingData0 }
  | .waitingData0 => stuffedRow e.pl.d0 .waitingData1 e o e1
  | .waitingData1 => stuffedRow e.pl.d1 .waitingData2 e o e1
  | .waitingData2 => stuffedRow e.pl.d2 .waitingData3 e o e1
  | .waitingData3 => stuffedRow e.pl.d3 .waitingFinalEsc e o e1
  | .waitingFinalEsc => o = some 0x1B#8 ∧ e1 = { e with state := .waitingEtx }
  | .waitingEtx => o = some 0x03#8 ∧ e1 = { e with state := .waitingChecksum }
  | .waitingChecksum => stuffedRow (checksum (startValue e.start) e.pl) .finished e o e1
  | .finished => o = none ∧ e1 = e

/-! ### The decoder's transition table, R170 -/

/-- The decoder after `reset(D)` (R169). -/
def resetDecoder (d : Decoder) : Decoder := { d with state := .initialEsc, escPend := false }

/-- The four rows of a payload-byte state (R164); `put v` is the decoder with `buf[k]` = `v`. -/
def dataRow (put : Byte → Decoder) (next : DecState) (d : Decoder) (b : Byte) (o : PushOutcome) (d1 : Decoder) : Prop :=
  (d.escPend = false → b = 0x1B#8 → o = .more ∧ d1 = { d with escPend := true }) ∧
  (d.escPend = false → b ≠ 0x1B#8 → o = .more ∧ d1 = { put b with state := next }) ∧
  (d.escPend = true → b = 0x1B#8 → o = .more ∧ d1 = { put 0x1B#8 with state := next, escPend := false }) ∧
  (d.escPend = true → b ≠ 0x1B#8 → o = .err .checksumIsEscButNotDuplicated ∧ d1 = resetDecoder d)

/-- The sum of the bytes the checksum covers, modulo 256 (R130, R134). -/
def coveredSum (s : Byte) (p : Payload) : Byte := s + p.d0 + p.d1 + p.d2 + p.d3 + 0x03#8

/-- The verdict on a destuffed received checksum `r` (R168), by the sum condition of R134. -/
def verdictRow (r : Byte) (d : Decoder) (o : PushOutcome) (d1 : Decoder) : Prop :=
  (coveredSum (startValue d.start) d.buf + r = 0#8 → o = .frame ⟨d.start, d.buf⟩ ∧ d1 = resetDecoder d) ∧
  (coveredSum (startValue d.start) d.buf + r ≠ 0#8 →
    o = .err (.invalidChecksum (0#8 - coveredSum (startValue d.start) d.buf) r) ∧ d1 = resetDecoder d)

/-- R170, one `DEC.PUSH b` into `d` with verdict `o`, leaving `d1`; the transient states have no row. -/
def decoderRow (d : Decoder) (b : Byte) (o : PushOutcome) (d1 : Decoder) : Prop :=
  match d.state with
  | .initialEsc =>
    o = .more ∧ (b = 0x1B#8 → d1 = { d with state := .startByte }) ∧ (b ≠ 0x1B#8 → d1 = d)
  | .startByte =>
    (b = 0x02#8 → o = .more ∧ d1 = { d with start := .stx, state := .directionAndChannel }) ∧
    (b = 0x06#8 → o = .more ∧ d1 = { d with start := .ack, state := .directionAndChannel }) ∧
    (b = 0x15#8 → o = .more ∧ d1 = { d with start := .nack, state := .directionAndChannel }) ∧
    (b ≠ 0x02#8 → b ≠ 0x06#8 → b ≠ 0x15#8 → o = .err (.invalidStartByte b) ∧ d1 = resetDecoder d)
  | .directionAndChannel => dataRow (fun v => { d with buf := { d.buf with d0 := v } }) .command d b o d1
  | .command => dataRow (fun v => { d with buf := { d.buf with d1 := v } }) .dataLow d b o d1
  | .dataLow => dataRow (fun v => { d with buf := { d.buf with d2 := v } }) .dataHigh d b o d1
  | .dataHigh => dataRow (fun v => { d with buf := { d.buf with d3 := v } }) .finalEsc d b o d1
  | .finalEsc =>
    (b = 0x1B#8 → o = .more ∧ d1 = { d with state := .etxByte }) ∧
    (b ≠ 0x1B#8 → o = .err .bufferOverFlow ∧ d1 = resetDecoder d)
  | .etxByte =>
    (b = 0x03#8 → o = .more ∧ d1 = { d with state := .checksum }) ∧
    (b = 0x1B#8 → o = .err .bufferOverFlow ∧ d1 = resetDecoder d) ∧
    (b ≠ 0x03#8 → b ≠ 0x1B#8 → o = .err (.expectedEtxOrEscDupButFoundOtherThing b) ∧ d1 = resetDecoder d)
  | .checksum =>
    (d.escPend = false → b = 0x1B#8 → o = .more ∧ d1 = { d with escPend := true }) ∧
    (d.escPend = false → b ≠ 0x1B#8 → verdictRow b d o d1) ∧
    (d.escPend = true → b = 0x1B#8 → verdictRow 0x1B#8 d o d1) ∧
    (d.escPend = true → b ≠ 0x1B#8 → o = .err .checksumIsEscButNotDuplicated ∧ d1 = resetDecoder d)
  | .successful => False
  | .error => False

/-! ### Which instruction may touch what (R21) -/

/-- The operations that drive the standalone encoder. -/
def drivesEncoder : Instr → Bool
  | .encLoad _ => true
  | .encNext => true
  | _ => false

/-- The operations, and the wire bytes and frames, that drive the standalone decoder. -/
def drivesDecoder : Instr → Bool
  | .esc => true
  | .etx => true
  | .stx => true
  | .ack => true
  | .nack => true
  | .frameStx _ _ _ _ _ => true
  | .frameAck _ _ _ _ _ => true
  | .frameNack _ _ _ _ _ => true
  | .decInit => true
  | .decPush _ => true
  | _ => false

/-- The operations of the transact unit, `TL.XPKT` among them. -/
def drivesTransact : Instr → Bool
  | .txnStart _ _ => true
  | .txnStep => true
  | .txnRun _ _ => true
  | .tlXpkt _ _ _ _ _ => true
  | _ => false

/-- The phase an instruction needs in order not to be refused (U3, U5). -/
def phaseAdmits (s : State) : Instr → Prop
  | .txnStart _ _ => ¬ exchanging s.txn
  | .txnRun _ _ => ¬ exchanging s.txn
  | .txnStep => exchanging s.txn
  | .tlXpkt c _ _ _ _ => c.toNat < 64 → ¬ exchanging s.txn
  | _ => True

end Sys2Proof.Safety
end

