-- ==== Sys2Proof/Certificates/Slice0/Obligations.lean ====
section
/-! DEFINITION. The statements for the provers, from the numbered rules of `spec/`. Byte values are written out, so that no
statement rests on a constant's definition. -/

open Sys2Proof Sys2Proof.Machine Sys2Proof.Safety

/-! ### Encodings -/

/-- R99 to R102, R110, R114: decoding the encoding of any instruction gives it back, with every operand at every value its
ports admit; so of every well-formed one. That a request says its format, and that the encoder puts zero on the ports an operation
does not read, is log entry 2, the model's choice. -/
def Obligations.DecodeEncodeRoundTrip : Prop := ∀ i : Instr, decode (encode i) = .ok i

/-- R90 to R93, R99: outside the operation ports, where every bit of a request is part of the row, a request that decodes is
the encoding of what it decodes to. -/
def Obligations.EncodeDecodeOfPatterns : Prop :=
  ∀ (r : Request) (i : Instr), (∀ p, r ≠ .op p) → decode r = .ok i → encode i = r

/-- R114, R110: a request matches a row of the table on the row's fixed bits exactly when it decodes to an instruction of that
row; so no request matches two rows. So too a request that matches no row decodes to nothing: for an operation code that is U1,
for a CTRL, START or FRAME pattern it is log entry 20, the model's choice. That a request says its format is log entry 2. -/
def Obligations.DecodeFollowsTheTable : Prop :=
  ∀ (r : Request) (n : Nat) (row : TableRow), opcodeTable[n]? = some row →
    (rowMatches row r = true ↔ ∃ i, decode r = .ok i ∧ rowIndex i = n)

/-- R90, R91, R92, R102, R110: a few words written out bit by bit decode to the instructions they stand for. -/
def Obligations.WrittenWordsDecode : Prop :=
  decode (.ctrl 0b00011011#8) = .ok .esc ∧
  decode (.start 0b00010101#8) = .ok .nack ∧
  decode (.frame 0x1B02C15061021B0387#72) = .ok (.frameStx 0xC1#8 0x50#8 0x61#8 0x02#8 0x87#8) ∧
  decode (.msg 0b11000001#8 0x50#8 0x61#8 0x02#8) = .ok (.setword 1#6 0x50#8 0x0261#16) ∧
  decode (.op { op := 0b00001#5, argFrame := 0x060186031B#40, argByte := 0#8, argTimeout := 0#64, argKind := 0#2,
                argWaddr := 0#8, argW16 := 0#16, argPos := 0#4 }) = .ok (.encLoad 0x060186031B#40) ∧
  decode (.op { op := 0b10011#5, argFrame := 0#40, argByte := 0x01#8, argTimeout := 1000#64, argKind := 3#2,
                argWaddr := 0x50#8, argW16 := 0x0261#16, argPos := 0#4 }) =
    .ok (.tlXpkt 0x01#8 3#2 0x50#8 0x0261#16 1000#64)

/-- R110, R281, U1: an invocation with one of the codes 0x14 to 0x1F on the `op` port is refused.
The list of the host's inputs is log entry 1. -/
def Obligations.UnassignedOperationRefused : Prop :=
  ∀ (s : State) (p : Ports) (rest : List HostInput), s.call = none → s.host = .invoke (.op p) :: rest →
    0x14 ≤ p.op.toNat → step s = .refused (.undecodable (.unassignedOperation p.op))

/-! ### Steps -/

/-- R12, R20 (log entry 1): with no blocking call in progress, a step whose next input decodes to an instruction is that
instruction's meaning, the input being taken; and a table word placed by `withFetchWord` is run by the very next step. -/
def Obligations.StepRunsTheDecodedInstruction : Prop :=
  (∀ (s : State) (r : Request) (i : Instr) (rest : List HostInput), s.call = none → s.host = .invoke r :: rest →
    decode r = .ok i → step s = exec i { s with host := rest }) ∧
  (∀ (s : State) (nbits w : Nat) (i : Instr), decodeTableWord nbits w = some i →
    step (s.withFetchWord nbits w) = exec i { s with call := none })

/-- R48: on reset every register that has a reset value takes it. The two logs are no registers (R45): that the machine's
first state has them empty is taken from the start state of `95_test_vectors.md` part 3 (R301 says that a reset event keeps
them, log entry 14). -/
def Obligations.ResetStateValues : Prop :=
  State.reset.enc.state = .finished ∧ State.reset.enc.dup = false ∧
  State.reset.dec.state = .initialEsc ∧ State.reset.dec.escPend = false ∧
  State.reset.txn.phase = .idle ∧ State.reset.txn.elapsed = 0#64 ∧ State.reset.txn.result = none ∧
  State.reset.txn.enc.state = .finished ∧ State.reset.txn.enc.dup = false ∧
  State.reset.txn.dec.state = .initialEsc ∧ State.reset.txn.dec.escPend = false ∧
  State.reset.env.txlog = [] ∧ State.reset.env.delays = 0

/-- R48, R301: the reset event, taken between operations (log entry 14), gives every register with a reset value that value
and does not touch the connection: the logs and the answers to come stand. That `res` stands too is log entry 9, the model's
choice.
The list of the host's inputs is log entry 1. -/
def Obligations.ResetEventEffect : Prop :=
  ∀ (s : State) (rest : List HostInput), s.call = none → s.host = .reset :: rest →
    ∃ t, step s = .next t ∧
      t.enc.state = .finished ∧ t.enc.dup = false ∧ t.dec.state = .initialEsc ∧ t.dec.escPend = false ∧
      t.txn.phase = .idle ∧ t.txn.elapsed = 0#64 ∧ t.txn.result = none ∧
      t.txn.enc.state = .finished ∧ t.txn.enc.dup = false ∧
      t.txn.dec.state = .initialEsc ∧ t.txn.dec.escPend = false ∧
      t.env = s.env ∧ t.call = none ∧ t.host = rest ∧ t.res = s.res

/-- R199, R237, R271: while a blocking call is in progress a step takes no input of the host and does not touch the
standalone encoder and decoder; either the exchange is not `Done` and the call goes on, or it is `Done` and the call returns its
outcome, `TL.XPKT` with the error wrapped. The model's choices: one machine step for each `TXN.STEP` (log entry 5), and that the
port `res` stands while the call goes on (log entry 9, unsafe during a call: no rule says what the port carries then). -/
def Obligations.BlockingCallHoldsTheHost : Prop :=
  ∀ (s t : State) (c : Call), s.call = some c → step s = .next t →
    t.host = s.host ∧ t.enc = s.enc ∧ t.dec = s.dec ∧
    ((t.call = some c ∧ t.res = s.res ∧ t.txn.phase ≠ .done) ∨
     (t.call = none ∧ t.txn.phase = .done ∧ ∃ r, t.txn.result = some r ∧
       (c = .run → t.res = some (.exchange r)) ∧
       (c = .xpkt → t.res = some (.transport (match r with
         | .ok x => .ok x
         | .error e => .error (.datalink e))))))

/-! ### CHK -/

/-- R130, R131: `CHK.CALC` of a frame returns its checksum and changes nothing else. -/
def Obligations.ChkCalcReturnsTheChecksum : Prop :=
  ∀ (w : BitVec 40) (s : State), legalFrameOperand w = true →
    exec (.chkCalc w) s = .next { s with res := some (.byte (BitVec.ofNat 8
      ((256 - ((w.extractLsb' 32 8).toNat + (w.extractLsb' 24 8).toNat + (w.extractLsb' 16 8).toNat +
        (w.extractLsb' 8 8).toNat + (w.extractLsb' 0 8).toNat + 0x03) % 256) % 256))) }

/-- R133: the checksum does not depend on the order of the payload bytes, and the covered bytes with the checksum sum to 0. -/
def Obligations.ChecksumLaws : Prop :=
  (∀ (s : Byte) (p q : Payload), [p.d0, p.d1, p.d2, p.d3].Perm [q.d0, q.d1, q.d2, q.d3] → checksum s p = checksum s q) ∧
  (∀ (s : Byte) (p : Payload),
    (s.toNat + p.d0.toNat + p.d1.toNat + p.d2.toNat + p.d3.toNat + 0x03 + (checksum s p).toNat) % 256 = 0)

/-- R135, first sentence, for the bytes the checksum is computed from: a change of the start byte or of one payload byte to
another value changes the checksum. R136: on the range property's frames the checksum is `i`, so every byte value is the
checksum of some frame. -/
def Obligations.ChecksumDetectsOneChangedByte : Prop :=
  (∀ (s v : Byte) (p : Payload), v ≠ s → checksum v p ≠ checksum s p) ∧
  (∀ (s v : Byte) (p : Payload), v ≠ p.d0 → checksum s { p with d0 := v } ≠ checksum s p) ∧
  (∀ (s v : Byte) (p : Payload), v ≠ p.d1 → checksum s { p with d1 := v } ≠ checksum s p) ∧
  (∀ (s v : Byte) (p : Payload), v ≠ p.d2 → checksum s { p with d2 := v } ≠ checksum s p) ∧
  (∀ (s v : Byte) (p : Payload), v ≠ p.d3 → checksum s { p with d3 := v } ≠ checksum s p) ∧
  (∀ i : Byte, checksum 0x02#8 ⟨0xC1#8, 0x50#8, 0x61#8, 0x89#8 - i⟩ = i)

/-! ### ENC and the wire form -/

/-- R141: `ENC.LOAD` latches the frame, in every state of the encoder, and changes nothing else. -/
def Obligations.EncLoadLatchesTheFrame : Prop :=
  ∀ (w : BitVec 40) (s : State), legalFrameOperand w = true →
    ∃ st, startValue st = w.extractLsb' 32 8 ∧
      exec (.encLoad w) s = .next { s with
        enc := { state := .waitingFirstEsc, dup := false, start := st,
                 pl := ⟨w.extractLsb' 24 8, w.extractLsb' 16 8, w.extractLsb' 8 8, w.extractLsb' 0 8⟩ }
        res := some .nothing }

/-- R142 to R149, R152: `ENC.NEXT` completes in every state, by the row of the transition table it meets, and changes nothing
but the standalone encoder's state and flag. -/
def Obligations.EncNextFollowsItsTable : Prop :=
  ∀ s : State, ∃ o e, encoderRow s.enc o e ∧
    exec .encNext s = .next { s with enc := e, res := some (.nextByte o) }

/-- R150: after a load, successive `ENC.NEXT` return exactly the physical wire form of the frame, 9 to 13 bytes by the number
of its stuffable bytes equal to 0x1B, and then `None` for ever, and nothing but the standalone encoder, the host's inputs and
`res` changes. That the host's invocations are a list taken one a step is log entry 1. -/
def Obligations.EncoderEmitsTheWireForm : Prop :=
  ∀ (s : State) (f : Frame) (m : Nat) (rest : List HostInput), s.call = none →
    s.host = invoking (.encLoad (packFrame f)) ::
      (List.replicate ((wireForm f).length + m) (invoking .encNext) ++ rest) →
    (runOutcomes (1 + (wireForm f).length + m) s).1 =
      some .nothing :: ((wireForm f).map fun b => some (Res.nextByte (some b))) ++
        List.replicate m (some (Res.nextByte none)) ∧
    (runOutcomes (1 + (wireForm f).length + m) s).2 = { s with
      enc := ⟨.finished, false, f.start, f.payload⟩
      host := rest
      res := if m = 0 then some (.nextByte (some ((wireForm f).getLastD 0#8))) else some (.nextByte none) } ∧
    (wireForm f).length =
      9 + [f.payload.d0, f.payload.d1, f.payload.d2, f.payload.d3, frameChecksum f].count 0x1B#8 ∧
    9 ≤ (wireForm f).length ∧ (wireForm f).length ≤ 13

/-- R151: every `ENC.NEXT` outside `Finished` strictly increases the pair (state code, `dup`) in lexicographic order, and in
`Finished` leaves the encoder unchanged. -/
def Obligations.EncoderAdvancesMonotonically : Prop :=
  ∀ s : State, ∃ t, exec .encNext s = .next t ∧
    (s.enc.state = .finished → t.enc = s.enc) ∧
    (s.enc.state ≠ .finished →
      (encStateCode s.enc.state).toNat < (encStateCode t.enc.state).toNat ∨
      (encStateCode s.enc.state = encStateCode t.enc.state ∧ s.enc.dup = false ∧ t.enc.dup = true))

/-- R92, R95, R97: the physical wire form is the nine logical bytes with each stuffable byte of value 0x1B doubled; its length
is 9 plus the number of those, at least 9 and at most 13. -/
def Obligations.WireFormShape : Prop :=
  ∀ f : Frame,
    wireForm f =
      [0x1B#8, startValue f.start] ++
      ([f.payload.d0, f.payload.d1, f.payload.d2, f.payload.d3].flatMap fun b => if b = 0x1B#8 then [b, b] else [b]) ++
      [0x1B#8, 0x03#8] ++ (if frameChecksum f = 0x1B#8 then [0x1B#8, 0x1B#8] else [frameChecksum f]) ∧
    (wireForm f).length =
      9 + [f.payload.d0, f.payload.d1, f.payload.d2, f.payload.d3, frameChecksum f].count 0x1B#8 ∧
    9 ≤ (wireForm f).length ∧ (wireForm f).length ≤ 13

/-- R98, R104: no wire form is a prefix of another frame's: a byte sequence is the physical wire form of at most one frame,
and a receiver can tell where a frame ends. -/
def Obligations.WireFormIsPrefixFree : Prop := ∀ f g : Frame, wireForm f <+: wireForm g → f = g

/-! ### DEC and the wire bytes -/

/-- R161, D15 (log entry 13): `DEC.INIT` completes in every state, makes its two writes and changes nothing else. -/
def Obligations.DecInitRestarts : Prop :=
  ∀ s : State, exec .decInit s = .next { s with
    dec := { s.dec with state := .initialEsc, escPend := false }, res := some .nothing }

/-- R160 to R169, R170: `DEC.PUSH` completes in every state the decoder holds between operations, by the row of the transition
table it meets, and changes nothing but the standalone decoder. The model's own: the rows that perform `reset(D)` keep
`D.start` and `D.buf` (D15; log entry 13), and in a transient state the push faults (U2a; log entry 12). -/
def Obligations.DecPushFollowsItsTable : Prop :=
  ∀ (b : Byte) (s : State),
    (¬ transient s.dec → ∃ o d, decoderRow s.dec b o d ∧
      exec (.decPush b) s = .next { s with dec := d, res := some (.push o) }) ∧
    (transient s.dec → exec (.decPush b) s = .fault .transientDecoderState)

/-- Log entry 6 (the model's reading of R90, R91, R114): each of the five control and start bytes of the table, met on the
wire, is pushed into the standalone decoder and changes nothing else. The table's reset rows keep `D.start` and `D.buf` (log
entry 13). -/
def Obligations.WireByteRowsPushTheirByte : Prop :=
  ∀ (i : Instr) (b : Byte) (s : State),
    (i, b) ∈ [(Instr.esc, 0x1B#8), (.etx, 0x03#8), (.stx, 0x02#8), (.ack, 0x06#8), (.nack, 0x15#8)] →
    ¬ transient s.dec → ∃ o d, decoderRow s.dec b o d ∧
      exec i s = .next { s with dec := d, res := some (.push o) }

/-- Log entry 7 (the model's reading of R92, R114), with R95, R153, R168: each of the three frame rows, met by a decoder in
`InitialEsc`, gets `More` for every byte of its physical form but the last, and for the last the frame if its checksum byte
makes the covered sum zero, else `InvalidChecksum`; nothing but the standalone decoder changes, which keeps what it received
(log entry 13). -/
def Obligations.FrameRowsAreDecoded : Prop :=
  ∀ (i : Instr) (st : StartByte) (p : Payload) (k : Byte) (s : State),
    (i, st) ∈ [(Instr.frameStx p.d0 p.d1 p.d2 p.d3 k, StartByte.stx), (.frameAck p.d0 p.d1 p.d2 p.d3 k, .ack),
      (.frameNack p.d0 p.d1 p.d2 p.d3 k, .nack)] →
    s.dec.state = .initialEsc → s.dec.escPend = false →
    exec i s = .next { s with
      dec := ⟨.initialEsc, false, st, p⟩
      res := some (.pushes (List.replicate
          (8 + [p.d0, p.d1, p.d2, p.d3, k].count 0x1B#8) PushOutcome.more ++
        [if coveredSum (startValue st) p + k = 0#8 then .frame ⟨st, p⟩
         else .err (.invalidChecksum (0#8 - coveredSum (startValue st) p) k)])) }

/-- R153, R177: the bytes of any frame's wire form, pushed one by one into the standalone decoder in `InitialEsc`, get `More`
but for the last, which delivers the frame; the decoder is then ready for the next one. The invocations are a list taken one a
step (log entry 1), and the decoder keeps what it received (log entry 13). -/
def Obligations.DecoderRoundTrip : Prop :=
  ∀ (s : State) (f : Frame) (rest : List HostInput), s.call = none → s.dec.state = .initialEsc →
    s.dec.escPend = false → s.host = ((wireForm f).map fun b => invoking (.decPush b)) ++ rest →
    runOutcomes (wireForm f).length s =
      (List.replicate ((wireForm f).length - 1) (some (.push .more)) ++ [some (.push (.frame f))],
       { s with dec := ⟨.initialEsc, false, f.start, f.payload⟩, host := rest, res := some (.push (.frame f)) })

/-- R177: starting in `InitialEsc`, a byte sequence ends in a frame on its last byte, with `More` on all before, exactly when
it is any number of bytes other than 0x1B followed by the frame's physical wire form. -/
def Obligations.DecoderAcceptedLanguage : Prop :=
  ∀ (bs : List Byte) (f : Frame) (d : Decoder), d.state = .initialEsc → d.escPend = false →
    ((∃ d1, decoderPushAll bs d = .ok (List.replicate (bs.length - 1) .more ++ [.frame f], d1)) ↔
      ∃ noise : List Byte, (∀ b ∈ noise, b ≠ 0x1B#8) ∧ bs = noise ++ wireForm f)

/-- The bound R176 is about, as R162 to R168 give it (log entry 17): a decoder waiting for a start byte answers something
other than `More` within 13 bytes, and not always within 12. -/
def Obligations.DecoderAnswersWithinThirteenBytes : Prop :=
  (∀ (bs : List Byte) (d : Decoder), d.state = .startByte → d.escPend = false → bs.length = 13 →
    ∃ os d1, decoderPushAll bs d = .ok (os, d1) ∧ ∃ o ∈ os, o ≠ .more) ∧
  (∃ (bs : List Byte) (d : Decoder), d.state = .startByte ∧ d.escPend = false ∧ bs.length = 12 ∧
    ∃ d1, decoderPushAll bs d = .ok (List.replicate 12 .more, d1))

/-- R169: every push that returns a frame or an error performs the two writes of `reset(D)`. That it makes no other write, so
that `D.start` and `D.buf` keep their contents, is log entry 13 (D15; R161 leaves them unspecified). -/
def Obligations.VerdictsResetTheDecoder : Prop :=
  ∀ (b : Byte) (d d1 : Decoder) (o : PushOutcome), decoderPush b d = .ok (o, d1) → o ≠ .more →
    d1 = { d with state := .initialEsc, escPend := false }

/-- R263 to R267: what the decoder's errors carry: the offending byte, never a start byte, or never 0x03 or 0x1B; the computed
and the received checksum, always different. -/
def Obligations.SegmentErrorsCarryTheirValues : Prop :=
  ∀ (b : Byte) (d d1 : Decoder) (e : SegmentError), decoderPush b d = .ok (.err e, d1) →
    (∀ x, e = .invalidStartByte x → d.state = .startByte ∧ x = b ∧ x ≠ 0x02#8 ∧ x ≠ 0x06#8 ∧ x ≠ 0x15#8) ∧
    (e = .bufferOverFlow → (d.state = .finalEsc ∧ b ≠ 0x1B#8) ∨ (d.state = .etxByte ∧ b = 0x1B#8)) ∧
    (∀ x, e = .expectedEtxOrEscDupButFoundOtherThing x → d.state = .etxByte ∧ x = b ∧ x ≠ 0x03#8 ∧ x ≠ 0x1B#8) ∧
    (e = .checksumIsEscButNotDuplicated → destuffing d.state = true ∧ d.escPend = true ∧ b ≠ 0x1B#8) ∧
    (∀ x y, e = .invalidChecksum x y →
      d.state = .checksum ∧ x = checksum (startValue d.start) d.buf ∧ y = b ∧ x ≠ y)

/-- R273: the code and info of every outcome on a port that carries bits: each of the ten errors, the wrapping without a code
of its own, and code 0 for every outcome that is no error. The model's choices: the verdicts of a frame row carry the bits of the
last one (log entry 7), the code has 4 bits, and the info is 0 where the table has a dash (log entry 22, unsafe). -/
def Obligations.ErrorCodesOfOutcomes : Prop :=
  (∀ b, resErrorBits (.push (.err (.invalidStartByte b))) = (1#4, b.setWidth 64)) ∧
  resErrorBits (.push (.err .bufferOverFlow)) = (2#4, 0#64) ∧
  (∀ b, resErrorBits (.push (.err (.expectedEtxOrEscDupButFoundOtherThing b))) = (3#4, b.setWidth 64)) ∧
  resErrorBits (.push (.err .checksumIsEscButNotDuplicated)) = (4#4, 0#64) ∧
  (∀ e r : Byte, resErrorBits (.push (.err (.invalidChecksum e r))) =
    (5#4, BitVec.ofNat 64 (e.toNat * 256 + r.toNat))) ∧
  (∀ e, resErrorBits (.startByte (.error e)) = resErrorBits (.push (.err e)) ∧
    resErrorBits (.exchange (.error (.segment e))) = resErrorBits (.push (.err e)) ∧
    resErrorBits (.transport (.error (.datalink (.segment e)))) = resErrorBits (.push (.err e))) ∧
  (∀ t, resErrorBits (.exchange (.error (.receptionTimeout t))) = (6#4, t) ∧
    resErrorBits (.transport (.error (.datalink (.receptionTimeout t)))) = (6#4, t)) ∧
  (∀ e, resErrorBits (.channel (.error e)) = (7#4, 0#64)) ∧
  resErrorBits (.transport (.error .invalidChannel)) = (7#4, 0#64) ∧
  resErrorBits (.masterStartByte (.error .notMasterStartByte)) = (8#4, 0#64) ∧
  resErrorBits (.masterStartByte (.error .notSlaveStartByte)) = (9#4, 0#64) ∧
  resErrorBits (.masterStartByte (.error .notSlaveFrame)) = (10#4, 0#64) ∧
  (∀ e, resErrorBits (.slaveStartByte (.error e)) = resErrorBits (.masterStartByte (.error e)) ∧
    resErrorBits (.slaveFrame (.error e)) = resErrorBits (.masterStartByte (.error e))) ∧
  (∀ os e, resErrorBits (.pushes (os ++ [.err e])) = resErrorBits (.push (.err e))) ∧
  (∀ r, isError r = false → resErrorBits r = (0#4, 0#64))

/-! ### TXN, operation by operation -/

/-- R191, R192: `TXN.START` with its precondition makes the writes of its rule and changes nothing else; during an exchange, or
with the timeout 2^64 - 1, it is refused. The model's choices: the private decoder's latch and buffer keep their contents (D15;
log entry 13), and where both preconditions fail the refusal names the exchange (log entry 10). -/
def Obligations.TxnStartBeginsAnExchange : Prop :=
  ∀ (w : BitVec 40) (t : Micros) (s : State), legalFrameOperand w = true →
    (exchanging s.txn → exec (.txnStart w t) s = .refused .exchangeInProgress) ∧
    (¬ exchanging s.txn → t = 0xFFFFFFFFFFFFFFFF#64 → exec (.txnStart w t) s = .refused .timeoutNotAdmitted) ∧
    (¬ exchanging s.txn → t ≠ 0xFFFFFFFFFFFFFFFF#64 → ∃ st, startValue st = w.extractLsb' 32 8 ∧
      exec (.txnStart w t) s = .next { s with
        txn := { phase := .send, timeout := t, elapsed := 0#64, result := none,
                 enc := { state := .waitingFirstEsc, dup := false, start := st,
                          pl := ⟨w.extractLsb' 24 8, w.extractLsb' 16 8, w.extractLsb' 8 8, w.extractLsb' 0 8⟩ },
                 dec := { s.txn.dec with state := .initialEsc, escPend := false } }
        res := some .nothing })

/-- R199, R191, U3, U4 (log entry 5): `TXN.RUN` does what `TXN.START` does and holds the caller from then on; its outcome is
not yet on `res` (log entry 9), and of two failed preconditions the refusal names the exchange (log entry 10). -/
def Obligations.TxnRunBeginsABlockingCall : Prop :=
  ∀ (w : BitVec 40) (t : Micros) (s : State), legalFrameOperand w = true →
    (exchanging s.txn → exec (.txnRun w t) s = .refused .exchangeInProgress) ∧
    (¬ exchanging s.txn → t = 0xFFFFFFFFFFFFFFFF#64 → exec (.txnRun w t) s = .refused .timeoutNotAdmitted) ∧
    (¬ exchanging s.txn → t ≠ 0xFFFFFFFFFFFFFFFF#64 → ∃ s1, exec (.txnStart w t) s = .next s1 ∧
      exec (.txnRun w t) s = .next { s with txn := s1.txn, call := some .run })

/-- R195, R193: `TXN.STEP` in phase `Send` transmits the byte the private encoder produces, or goes to `Poll` when there is
none; nothing else changes. The model's own: the calls are kept in the trace (log entry 15), and the step completes because
`ConnTransmit` always returns (U9; log entry 16, unsafe). -/
def Obligations.TxnStepInSendTransmits : Prop :=
  ∀ s : State, s.txn.phase = .send → ∃ o e, encoderRow s.txn.enc o e ∧
    (∀ b, o = some b → exec .txnStep s = .next { s with
      txn := { s.txn with enc := e }
      env := { s.env with txlog := s.env.txlog ++ [b], trace := s.env.trace ++ [.transmit b] }
      res := some .nothing }) ∧
    (o = none → exec .txnStep s = .next { s with txn := { s.txn with enc := e, phase := .poll }, res := some .nothing })

/-- R196, R198: `TXN.STEP` in phase `Poll` on a ready byte pushes it into the private decoder, counts no time and tests no
timeout; a frame or an error ends the exchange. The model's choices: the answer is the first of those listed (log entry 3), the
calls are kept in the trace (log entry 15), and a verdict leaves the private decoder's latch and buffer (D15; log entry 13). -/
def Obligations.TxnStepTakesAReadyByte : Prop :=
  ∀ (s : State) (b : Byte) (rest : List PollAnswer), s.txn.phase = .poll → ¬ transient s.txn.dec →
    s.env.answers = .byte b :: rest → ∃ o d, decoderRow s.txn.dec b o d ∧
      exec .txnStep s = .next { s with
        txn := match o with
          | .more => { s.txn with dec := d }
          | .frame g => { s.txn with
              dec := d, phase := .done, result := some (.ok { frame := g, responseTimeUs := s.txn.elapsed }) }
          | .err e => { s.txn with dec := d, phase := .done, result := some (.error (.segment e)) }
        env := { s.env with answers := rest, trace := s.env.trace ++ [.ready true, .receive b] }
        res := some .nothing }

/-- R197: an idle poll asks for one microsecond, counts it, and fails the exchange exactly when the count exceeds the timeout.
The model's own: the answer is the first of those listed (log entry 3), the calls are kept in the trace (log entry 15), and the
step completes because `DelayUs` always returns (log entry 16, unsafe). -/
def Obligations.TxnStepCountsAnIdlePoll : Prop :=
  ∀ (s : State) (rest : List PollAnswer), s.txn.phase = .poll → s.txn.elapsed ≠ 0xFFFFFFFFFFFFFFFF#64 →
    s.env.answers = .idle :: rest →
    ∃ n : Micros, n.toNat = s.txn.elapsed.toNat + 1 ∧
      exec .txnStep s = .next { s with
        txn := if n.toNat > s.txn.timeout.toNat then
            { s.txn with elapsed := n, phase := .done, result := some (.error (.receptionTimeout n)) }
          else { s.txn with elapsed := n }
        env := { s.env with answers := rest, delays := s.env.delays + 1,
                            trace := s.env.trace ++ [.ready false, .delay 1] }
        res := some .nothing }

/-- R63, R64, U8 (log entry 3): with no answer fixed beforehand a poll behaves as it would on some fixed answer, about which
nothing is known; one draw is counted. -/
def Obligations.FreePollsBehaveAsFixedOnes : Prop :=
  ∀ s : State, s.txn.phase = .poll → s.env.answers = [] → ∃ a : PollAnswer,
    exec .txnStep s = thenDo (fun t => t.withEnv { t.env with draws := s.env.draws + 1 })
      (exec .txnStep { s with env := { s.env with answers := [a] } })

/-- R193, U5: `TXN.STEP` outside an exchange is refused. -/
def Obligations.TxnStepRefusedOutsideAnExchange : Prop :=
  ∀ s : State, s.txn.phase = .idle ∨ s.txn.phase = .done → exec .txnStep s = .refused .noExchangeInProgress

/-! ### TXN, whole exchanges -/

/-- R195, R200 (a), R202 (a): after a blocking call has begun, the `Send` phase takes one step more than the wire form has
bytes, appends exactly the wire form to the transmit log, and makes no other call and no other change than to the private
encoder and the phase. The model's choices: one machine step for each `TXN.STEP` (log entry 5), `res` left alone meanwhile (log
entry 9), the trace (log entry 15), and that `ConnTransmit` always returns (U9; log entry 16, unsafe). -/
def Obligations.SendPhaseTransmitsTheWireForm : Prop :=
  ∀ (s : State) (c : Call) (f : Frame) (t : Micros) (x : Transact), s.call = some c → s.txn = startedTransact f t x →
    run ((wireForm f).length + 1) s = .next { s with
      txn := { s.txn with phase := .poll, enc := ⟨.finished, false, f.start, f.payload⟩ }
      env := { s.env with txlog := s.env.txlog ++ wireForm f,
                          trace := s.env.trace ++ (wireForm f).map .transmit } }

/-- R197, R199, R200 (c), R268: on a line that stays idle, `TXN.RUN` returns `ReceptionTimeout` with `elapsed_time` =
`timeout_us` + 1, after exactly that many idle polls and delays, the request having been sent whole. The count of machine steps
is log entry 5, and that `ConnTransmit` and `DelayUs` always return is log entry 16 (unsafe).
The lists of the host's inputs and of the answers to come are log entries 1 and 3. -/
def Obligations.SilentLineTimesOut : Prop :=
  ∀ (s : State) (f : Frame) (t : Micros) (hs : List HostInput) (rest : List PollAnswer),
    s.call = none → ¬ exchanging s.txn → t ≠ 0xFFFFFFFFFFFFFFFF#64 →
    s.host = invoking (.txnRun (packFrame f) t) :: hs →
    s.env.answers = List.replicate (t.toNat + 1) .idle ++ rest →
    ∃ u, run (1 + ((wireForm f).length + 1) + (t.toNat + 1)) s = .next u ∧
      u.res = some (.exchange (.error (.receptionTimeout (t + 1#64)))) ∧ u.call = none ∧ u.host = hs ∧
      u.txn.phase = .done ∧ u.txn.elapsed.toNat = t.toNat + 1 ∧
      u.env.delays = s.env.delays + (t.toNat + 1) ∧ u.env.txlog = s.env.txlog ++ wireForm f ∧
      u.env.answers = rest ∧ u.enc = s.enc ∧ u.dec = s.dec

/-- R196 to R200 (b), R177: `TXN.RUN` on a line that delivers, with any idle polls in between, noise free of 0x1B and then a
frame's wire form, returns that frame with the number of idle polls as its response time, if there are at most `timeout_us`
of them; whatever answers come later stay in the connection. The count of machine steps is log entry 5, and that `ConnTransmit`
and `DelayUs` always return is log entry 16 (unsafe).
The lists of the host's inputs and of the answers to come are log entries 1 and 3. -/
def Obligations.ResponseEndsTheExchange : Prop :=
  ∀ (s : State) (f g : Frame) (t : Micros) (hs : List HostInput) (script rest : List PollAnswer) (noise : List Byte)
    (last : Byte),
    s.call = none → ¬ exchanging s.txn → t ≠ 0xFFFFFFFFFFFFFFFF#64 →
    s.host = invoking (.txnRun (packFrame f) t) :: hs →
    s.env.answers = script ++ rest → script.getLast? = some (.byte last) →
    (∀ b ∈ noise, b ≠ 0x1B#8) → bytesOf script = noise ++ wireForm g → idleCount script ≤ t.toNat →
    ∃ u, run (1 + ((wireForm f).length + 1) + script.length) s = .next u ∧
      u.res = some (.exchange (.ok { frame := g, responseTimeUs := BitVec.ofNat 64 (idleCount script) })) ∧
      u.call = none ∧ u.host = hs ∧ u.txn.phase = .done ∧
      u.env.delays = s.env.delays + idleCount script ∧ u.env.txlog = s.env.txlog ++ wireForm f ∧
      u.env.answers = rest ∧ u.enc = s.enc ∧ u.dec = s.dec

/-- R196, R200 (d), R237, R271: `TL.XPKT` on a valid channel returns the first decode error of the response, wrapped twice,
and the bytes after it stay in the connection; the request sent is the master frame of the message (R231 to R235). The count of
machine steps is log entry 5, and that `ConnTransmit` and `DelayUs` always return is log entry 16 (unsafe).
The lists of the host's inputs and of the answers to come are log entries 1 and 3. -/
def Obligations.DecodeErrorEndsTheExchange : Prop :=
  ∀ (s : State) (c : Byte) (k : Kind) (w : Byte) (a : Word) (t : Micros) (hs : List HostInput)
    (script rest : List PollAnswer) (last : Byte) (d0 d1 : Decoder) (e : SegmentError) (n : Nat),
    s.call = none → ¬ exchanging s.txn → t ≠ 0xFFFFFFFFFFFFFFFF#64 → c.toNat < 64 →
    s.host = invoking (.tlXpkt c k w a t) :: hs →
    s.env.answers = script ++ rest → script.getLast? = some (.byte last) →
    d0.state = .initialEsc → d0.escPend = false →
    decoderPushAll (bytesOf script) d0 = .ok (List.replicate n .more ++ [.err e], d1) → idleCount script ≤ t.toNat →
    ∃ f u, f = makeFrame (c.extractLsb' 0 6) (messageOf k w a) ∧
      f.start = .stx ∧ f.payload.d0 = k ++ c.extractLsb' 0 6 ∧ f.payload.d1 = w ∧
      f.payload.d2 = (if k = 0#2 then 0x00#8 else a.extractLsb' 0 8) ∧
      f.payload.d3 = (if k = 0#2 then 0x00#8 else a.extractLsb' 8 8) ∧
      run (1 + ((wireForm f).length + 1) + script.length) s = .next u ∧
      u.res = some (.transport (.error (.datalink (.segment e)))) ∧
      u.call = none ∧ u.host = hs ∧ u.txn.phase = .done ∧
      u.env.delays = s.env.delays + idleCount script ∧ u.env.txlog = s.env.txlog ++ wireForm f ∧
      u.env.answers = rest ∧ u.enc = s.enc ∧ u.dec = s.dec

/-- R202 (b), R308: a line that keeps delivering bytes other than 0x1B to a decoder in `InitialEsc` keeps the exchange in
`Poll`, with no time counted, for as many polls as it delivers. The model's choices: one machine step for each poll of the call
(log entry 5), and that `res` stands meanwhile (log entry 9, unsafe during a call).
The list of the answers to come is log entry 3. -/
def Obligations.BabblingLineKeepsPolling : Prop :=
  ∀ (s : State) (c : Call) (bs : List Byte) (rest : List PollAnswer), s.call = some c → s.txn.phase = .poll →
    s.txn.dec.state = .initialEsc → s.txn.dec.escPend = false → (∀ b ∈ bs, b ≠ 0x1B#8) →
    s.env.answers = bs.map .byte ++ rest →
    ∃ u, run bs.length s = .next u ∧ u.txn = s.txn ∧ u.call = some c ∧ u.env.delays = s.env.delays ∧
      u.env.answers = rest ∧ u.res = s.res

/-- R76, R65: the calls of one step to the environment: none; or one transmit, in phase `Send` only; or a poll, in phase `Poll`
only, that is `ConnReady` followed by exactly one of `ConnReceive` (after true) and `DelayUs(1)` (after false). No step makes a
connection. The calls are read from the trace, the model's own log (log entry 15), and a blocking call is taken one `TXN.STEP` a
step (log entry 5). -/
def Obligations.EnvironmentCallOrder : Prop :=
  ∀ s t : State, step s = .next t → ∃ cs, t.env.trace = s.env.trace ++ cs ∧ EnvCall.create ∉ cs ∧
    (cs = [] ∨
     (s.txn.phase = .send ∧ ∃ b, cs = [.transmit b]) ∨
     (s.txn.phase = .poll ∧ ∃ b, cs = [.ready true, .receive b]) ∨
     (s.txn.phase = .poll ∧ cs = [.ready false, .delay 1]))

/-- R193: the only phase changes are `Send` to `Poll`, `Poll` to `Done`, and by `TXN.START` (or the calls that contain it)
`Idle` to `Send` and `Done` to `Send`: first for the operations, then for every step of the machine, where the first two are
made by `TXN.STEP` or by a step of a blocking call (log entry 5), and where the reset event, which is no operation, may change
the phase to `Idle` (R48; taken between operations, log entry 14).
The list of the host's inputs is log entry 1. -/
def Obligations.PhaseChanges : Prop :=
  (∀ (i : Instr) (s t : State), exec i s = .next t → t.txn.phase ≠ s.txn.phase →
    (i = .txnStep ∧ s.txn.phase = .send ∧ t.txn.phase = .poll) ∨
    (i = .txnStep ∧ s.txn.phase = .poll ∧ t.txn.phase = .done) ∨
    (drivesTransact i = true ∧ i ≠ .txnStep ∧ ¬ exchanging s.txn ∧ t.txn.phase = .send)) ∧
  (∀ s t : State, step s = .next t → t.txn.phase ≠ s.txn.phase →
    ((s.call ≠ none ∨ runsNext s .txnStep) ∧
      ((s.txn.phase = .send ∧ t.txn.phase = .poll) ∨ (s.txn.phase = .poll ∧ t.txn.phase = .done))) ∨
    ((∃ i, runsNext s i ∧ drivesTransact i = true ∧ i ≠ .txnStep) ∧
      (s.txn.phase = .idle ∨ s.txn.phase = .done) ∧ t.txn.phase = .send) ∨
    (s.call = none ∧ s.host.head? = some .reset ∧ t.txn.phase = .idle))

/-! ### TL -/

/-- R222: `SB.FROM` on every byte. -/
def Obligations.SbFromClassifies : Prop :=
  ∀ (b : Byte) (s : State), exec (.sbFrom b) s = .next { s with res := some (.startByte (
    if b = 0x02#8 then .ok .stx else if b = 0x06#8 then .ok .ack else if b = 0x15#8 then .ok .nack
    else .error (.invalidStartByte b))) }

/-- R223, R224: the two start-byte refinements on the three legal start bytes; any other byte is refused (U6). -/
def Obligations.StartByteRefinements : Prop :=
  ∀ s : State,
    exec (.sbTomaster 0x02#8) s = .next { s with res := some (.masterStartByte (.ok .stx)) } ∧
    (∀ b, b = 0x06#8 ∨ b = 0x15#8 →
      exec (.sbTomaster b) s = .next { s with res := some (.masterStartByte (.error .notMasterStartByte)) }) ∧
    exec (.sbToslave 0x06#8) s = .next { s with res := some (.slaveStartByte (.ok .ack)) } ∧
    exec (.sbToslave 0x15#8) s = .next { s with res := some (.slaveStartByte (.ok .nack)) } ∧
    exec (.sbToslave 0x02#8) s = .next { s with res := some (.slaveStartByte (.error .notSlaveStartByte)) } ∧
    (∀ b, b ≠ 0x02#8 → b ≠ 0x06#8 → b ≠ 0x15#8 →
      exec (.sbTomaster b) s = .refused (.notAStartByte b) ∧ exec (.sbToslave b) s = .refused (.notAStartByte b))

/-- R225: `FR.TOSLAVE` fails exactly on master frames and returns the payload unchanged. -/
def Obligations.FrToslaveChecksOrigin : Prop :=
  ∀ (w : BitVec 40) (s : State),
    (w.extractLsb' 32 8 = 0x02#8 → exec (.frToslave w) s =
      .next { s with res := some (.slaveFrame (.error .notSlaveFrame)) }) ∧
    (w.extractLsb' 32 8 = 0x06#8 → exec (.frToslave w) s = .next { s with res := some (.slaveFrame (.ok
      ⟨.ack, ⟨w.extractLsb' 24 8, w.extractLsb' 16 8, w.extractLsb' 8 8, w.extractLsb' 0 8⟩⟩)) }) ∧
    (w.extractLsb' 32 8 = 0x15#8 → exec (.frToslave w) s = .next { s with res := some (.slaveFrame (.ok
      ⟨.nack, ⟨w.extractLsb' 24 8, w.extractLsb' 16 8, w.extractLsb' 8 8, w.extractLsb' 0 8⟩⟩)) })

/-- R281, U6: a byte that is no start byte, where a `StartByte` is required, is refused, in every phase and with every timeout.
That the refusal names the byte where the phase or the timeout would be refused too is log entry 10, the model's choice. -/
def Obligations.IllTypedStartByteRefused : Prop :=
  ∀ (w : BitVec 40) (b : Byte) (t : Micros) (s : State),
    (legalFrameOperand w = false → ∀ i ∈ [Instr.chkCalc w, .encLoad w, .txnStart w t, .txnRun w t, .frToslave w],
      exec i s = .refused (.notAStartByte (w.extractLsb' 32 8))) ∧
    (legalStartByte b = false → ∀ i ∈ [Instr.sbTomaster b, .sbToslave b], exec i s = .refused (.notAStartByte b))

/-- R226: `CH.FROM` succeeds on 0 to 63 and fails on 64 and above. -/
def Obligations.ChFromBound : Prop :=
  ∀ (b : Byte) (s : State), exec (.chFrom b) s = .next { s with res := some (.channel (
    if 64 ≤ b.toNat then .error .invalidChannel else .ok (b.extractLsb' 0 6))) }

/-- R227, U2: `CH.ISZERO` on a channel; a value of 64 or more is refused. -/
def Obligations.ChIszeroOnChannels : Prop :=
  ∀ (b : Byte) (s : State),
    (b.toNat < 64 → exec (.chIszero b) s = .next { s with res := some (.isZero (decide (b.toNat = 0))) }) ∧
    (64 ≤ b.toNat → exec (.chIszero b) s = .refused (.notAChannel b))

/-- R228, R229, R103: split and join of a Word16, and their round trip. -/
def Obligations.Word16SplitAndJoin : Prop :=
  (∀ (w : Word) (s : State), exec (.w16Split w) s = .next { s with res := some (.bytePair
    (BitVec.ofNat 8 (w.toNat % 256)) (BitVec.ofNat 8 (w.toNat / 256))) }) ∧
  (∀ (low high : Byte) (s : State), exec (.w16Join (high ++ low)) s = .next { s with res := some (.word
    (BitVec.ofNat 16 (high.toNat * 256 + low.toNat))) }) ∧
  (∀ w : Word, joinBytes (lowByte w) (highByte w) = w) ∧
  (∀ l h : Byte, lowByte (joinBytes l h) = l ∧ highByte (joinBytes l h) = h)

/-- R230: `W16.BIT` returns bit `pos` of the word. -/
def Obligations.Word16Bit : Prop :=
  ∀ (w : Word) (pos : BitVec 4) (s : State), exec (.w16Bit w pos) s = .next { s with res := some (.bit
    (w.getLsbD pos.toNat)) }

/-- R231 to R235: `TL.MKFRAME` on a channel and each message kind; a value of 64 or more is refused (U2). -/
def Obligations.MkframeBuildsMasterFrames : Prop :=
  ∀ (c : Byte) (w : Byte) (a : Word) (s : State),
    (c.toNat < 64 →
      exec (.tlMkframe c 0#2 w a) s = .next { s with res := some (.frame ⟨.stx, ⟨c, w, 0x00#8, 0x00#8⟩⟩) } ∧
      exec (.tlMkframe c 1#2 w a) s = .next { s with res := some (.frame
        ⟨.stx, ⟨0x40#8 ||| c, w, a.extractLsb' 0 8, a.extractLsb' 8 8⟩⟩) } ∧
      exec (.tlMkframe c 2#2 w a) s = .next { s with res := some (.frame
        ⟨.stx, ⟨0x80#8 ||| c, w, a.extractLsb' 0 8, a.extractLsb' 8 8⟩⟩) } ∧
      exec (.tlMkframe c 3#2 w a) s = .next { s with res := some (.frame
        ⟨.stx, ⟨0xC0#8 ||| c, w, a.extractLsb' 0 8, a.extractLsb' 8 8⟩⟩) }) ∧
    (64 ≤ c.toNat → ∀ k, exec (.tlMkframe c k w a) s = .refused (.notAChannel c))

/-- R232 to R235, R99 (log entry 8): each of the four message rows is the master frame whose payload is the row's own four
bytes, with zero argument bytes for GETWORD; nothing else changes. -/
def Obligations.MessageRowsAreMasterFrames : Prop :=
  ∀ (c : Channel) (w : Byte) (a : Word) (s : State),
    exec (.getword c w a) s = .next { s with res := some (.frame ⟨.stx, ⟨0#2 ++ c, w, 0x00#8, 0x00#8⟩⟩) } ∧
    exec (.resetbitmask c w a) s = .next { s with res := some (.frame
      ⟨.stx, ⟨1#2 ++ c, w, a.extractLsb' 0 8, a.extractLsb' 8 8⟩⟩) } ∧
    exec (.setbitmask c w a) s = .next { s with res := some (.frame
      ⟨.stx, ⟨2#2 ++ c, w, a.extractLsb' 0 8, a.extractLsb' 8 8⟩⟩) } ∧
    exec (.setword c w a) s = .next { s with res := some (.frame
      ⟨.stx, ⟨3#2 ++ c, w, a.extractLsb' 0 8, a.extractLsb' 8 8⟩⟩) }

/-- R236: `PL.SPLIT0` splits payload byte 0, and recovers kind and channel of the byte R231 builds from them. -/
def Obligations.PlSplit0RecoversKindAndChannel : Prop :=
  (∀ (b : Byte) (s : State), exec (.plSplit0 b) s = .next { s with res := some (.kindChannel
    (BitVec.ofNat 2 (b.toNat / 64)) (BitVec.ofNat 6 (b.toNat % 64))) }) ∧
  (∀ (k : Kind) (c : Channel) (s : State),
    exec (.plSplit0 ((k.setWidth 8 <<< 6) ||| c.setWidth 8)) s = .next { s with res := some (.kindChannel k c) })

/-- R237, R269, R276 (a): `TL.XPKT` on a raw channel of 64 or more returns `InvalidChannel`, in every phase and with every
timeout, and changes nothing else. -/
def Obligations.XpktInvalidChannelHasNoEffect : Prop :=
  ∀ (c : Byte) (k : Kind) (w : Byte) (a : Word) (t : Micros) (s : State), 64 ≤ c.toNat →
    exec (.tlXpkt c k w a t) s = .next { s with res := some (.transport (.error .invalidChannel)) }

/-- R237, R238, U3, U4 (log entry 5): `TL.XPKT` on a valid channel begins the blocking exchange of the message's master frame;
the four exposed operations are its four kinds; the argument of a GetWord is ignored. The model's choices beside entry 5: `res`
stands as the call begins (log entry 9, unsafe during a call), of two failed preconditions the refusal names the exchange (log
entry 10), and the private decoder's latch and buffer keep their contents (D15; log entry 13). -/
def Obligations.XpktBeginsTheExchangeOfItsFrame : Prop :=
  ∀ (c w : Byte) (v : Word) (t : Micros) (s : State), c.toNat < 64 →
    (exchanging s.txn → ∀ k, exec (.tlXpkt c k w v t) s = .refused .exchangeInProgress) ∧
    (¬ exchanging s.txn → t = 0xFFFFFFFFFFFFFFFF#64 → ∀ k, exec (.tlXpkt c k w v t) s = .refused .timeoutNotAdmitted) ∧
    (¬ exchanging s.txn → t ≠ 0xFFFFFFFFFFFFFFFF#64 →
      ∀ i p, (i, p) ∈ [(.tlXpkt c 0#2 w v t, (⟨c, w, 0x00#8, 0x00#8⟩ : Payload)), (tlGetword c w t, ⟨c, w, 0x00#8, 0x00#8⟩),
          (tlSetword c w v t, ⟨0xC0#8 ||| c, w, v.extractLsb' 0 8, v.extractLsb' 8 8⟩),
          (tlSetbitmask c w v t, ⟨0x80#8 ||| c, w, v.extractLsb' 0 8, v.extractLsb' 8 8⟩),
          (tlResetbitmask c w v t, ⟨0x40#8 ||| c, w, v.extractLsb' 0 8, v.extractLsb' 8 8⟩)] →
        exec i s = .next { s with
          txn := { phase := .send, timeout := t, elapsed := 0#64, result := none,
                   enc := { state := .waitingFirstEsc, dup := false, start := .stx, pl := p },
                   dec := { s.txn.dec with state := .initialEsc, escPend := false } }
          call := some .xpkt })

/-! ### The whole machine -/

/-- R46, R204, R200 at reset. Two clauses hold there by what the model names: the timeout is admitted (R37) because log entry 4
names 0 for the reset value of `txn.timeout`, which R40 leaves unspecified (unsafe); and the logs agree because log, count and
trace all start empty (`95_test_vectors.md` part 3; log entries 14, 15, 21). -/
def Obligations.ResetMeetsTheInvariant : Prop := Inv State.reset

/-- R46, with R200's bounds on an ended exchange, R204, R37's legal timeouts, R199's call only during an exchange, the logs of
R45 and R65's 'No operation of the engine calls it': every step of the machine keeps the invariant, from every state that meets
it. The model's own: a call returns in the very step that reaches `Done`, so that none is in progress after it (log entry 5);
after a reset event the timeout is admitted by the value log entry 4 names (unsafe) and the logs stand (log entry 14); and the
logs are summed against the trace (log entries 15, 21). -/
def Obligations.EveryStepKeepsTheInvariant : Prop := ∀ s t : State, Inv s → step s = .next t → Inv t

/-- R49, U7, U7a: no step reads a register whose value the spec leaves unspecified: states that agree on the live registers
give the same fault, the same refusal, or next states that agree on the live registers and on every outcome and call. So the
reset values of log entry 4, and the contents that log entry 13 keeps, are never observed. -/
def Obligations.DeadRegistersAreNeverRead : Prop := ∀ a b : State, SameLive a b → SameAnswer (step a) (step b)

/-- R21, R22, R41: an operation touches only the unit it drives: the standalone encoder, the standalone decoder, or the
transact unit with the environment and the blocking call (log entry 5); and no operation touches the host's inputs. R21 names
`DEC.INIT` and `DEC.PUSH` for the standalone decoder; that the CTRL, START and FRAME rows drive it too is log entries 6 and 7, the
model's reading. -/
def Obligations.UnitsAreIsolated : Prop :=
  ∀ (i : Instr) (s t : State), exec i s = .next t →
    (drivesEncoder i = false → t.enc = s.enc) ∧ (drivesDecoder i = false → t.dec = s.dec) ∧
    (drivesTransact i = false → t.txn = s.txn ∧ t.env = s.env ∧ t.call = s.call) ∧ t.host = s.host

/-- R285, R281, R278: in every state that meets the invariant, every well-formed instruction whose phase condition holds
completes, and so does a frame row with any checksum byte: the refusals named are the only ones. The model's own: `TXN.RUN` and
`TL.XPKT` complete when their call has begun (log entry 5; by R202 the exchange itself need not end), `TXN.STEP` completes because
`ConnTransmit` and `DelayUs` always return (log entry 16, unsafe), and what the CTRL and START, the FRAME and the MSG rows do is
log entries 6, 7 and 8. -/
def Obligations.WellFormedOperationsComplete : Prop :=
  ∀ (i : Instr) (s : State), Inv s → wellFormed i = true ∨ drivesDecoder i = true → phaseAdmits s i → ∃ t, exec i s = .next t
end

