-- ==== Sys2Proof/Laws/Operands.lean ====
section
/-! SUPPORT. The small lemmas of the operand forms: joining and cutting bit fields, start bytes, frames, channels. -/

namespace Sys2Proof.Laws

open Sys2Proof.Machine

/-! ### Joined bit fields -/

/-- The low field of two joined ones. -/
theorem append_low {n m : Nat} (b : BitVec n) (a : BitVec m) : (b ++ a : BitVec (n + m)).extractLsb' 0 m = a := by
  apply BitVec.eq_of_getLsbD_eq; intro i hi; simp [BitVec.getLsbD_append, hi]

/-- The high field of two joined ones. -/
theorem append_high {n m : Nat} (b : BitVec n) (a : BitVec m) : (b ++ a : BitVec (n + m)).extractLsb' m n = b := by
  apply BitVec.eq_of_getLsbD_eq; intro i hi; simp [BitVec.getLsbD_append, hi]

/-- A field above the low one is a field of the high one. -/
theorem append_above {n m k : Nat} (b : BitVec n) (a : BitVec m) (j : Nat) :
    (b ++ a : BitVec (n + m)).extractLsb' (m + j) k = b.extractLsb' j k := by
  apply BitVec.eq_of_getLsbD_eq; intro i hi
  simp only [BitVec.getLsbD_extractLsb', hi, decide_true, Bool.true_and, BitVec.getLsbD_append]
  rw [if_neg (by omega)]; congr 1; omega

/-- A word cut in two and joined again. -/
theorem cut_join {n m : Nat} (w : BitVec (n + m)) : w.extractLsb' m n ++ w.extractLsb' 0 m = w := by
  apply BitVec.eq_of_getLsbD_eq; intro i hi; simp

/-- A whole word as a field of itself. -/
theorem whole_field {n : Nat} (b : BitVec n) : b.extractLsb' 0 n = b := by simp

/-! ### Start bytes -/

@[simp] theorem startOf_startValue (st : StartByte) : startOf (startValue st) = some st := by cases st <;> rfl

theorem startOf_eq_some {b : Byte} {st : StartByte} : startOf b = some st ↔ b = startValue st := by
  constructor
  · intro h; unfold startOf at h; split_ifs at h <;> cases h <;> assumption
  · rintro rfl; simp

theorem startOf_eq_none {b : Byte} : startOf b = none ↔ b ≠ 0x02#8 ∧ b ≠ 0x06#8 ∧ b ≠ 0x15#8 := by
  unfold startOf; split_ifs <;> simp_all

theorem startValue_injective {a b : StartByte} (h : startValue a = startValue b) : a = b := by
  have := congrArg startOf h; simpa using this

/-- No start byte is `ESC` (R91). -/
theorem startValue_ne_esc (st : StartByte) : startValue st ≠ Config.esc := by cases st <;> decide

/-- A legal start byte is the value of one of the three. -/
theorem legalStartByte_iff {b : Byte} : legalStartByte b = true ↔ ∃ st, startOf b = some st := by
  unfold legalStartByte startOf; split_ifs <;> simp_all

theorem legalStartByte_eq_false {b : Byte} : legalStartByte b = false ↔ startOf b = none := by
  rw [← Bool.not_eq_true, legalStartByte_iff, Option.eq_none_iff_forall_ne_some, not_exists]

/-! ### Frame operands -/

theorem unpackFrame_eq_some {w : BitVec 40} {f : Frame} :
    unpackFrame w = some f ↔ startOf (frameStartField w) = some f.start ∧ f.payload = framePayload w := by
  unfold unpackFrame
  cases h : startOf (frameStartField w) with
  | none => simp
  | some st => obtain ⟨a, p⟩ := f; simp [eq_comm]

theorem unpackFrame_of_legal {w : BitVec 40} (h : legalFrameOperand w = true) :
    ∃ st, startValue st = frameStartField w ∧ unpackFrame w = some ⟨st, framePayload w⟩ := by
  obtain ⟨st, hs⟩ := legalStartByte_iff.mp h
  exact ⟨st, (startOf_eq_some.mp hs).symm, unpackFrame_eq_some.mpr ⟨hs, rfl⟩⟩

theorem unpackFrame_of_illegal {w : BitVec 40} (h : legalFrameOperand w = false) : unpackFrame w = none := by
  have hs : startOf (frameStartField w) = none := legalStartByte_eq_false.mp h
  simp [unpackFrame, hs]

/-- Packing a frame and unpacking it gives it back (R25). -/
@[simp] theorem unpackFrame_packFrame (f : Frame) : unpackFrame (packFrame f) = some f := by
  obtain ⟨st, a, b, c, d⟩ := f
  refine unpackFrame_eq_some.mpr ⟨?_, ?_⟩
  · rw [startOf_eq_some]
    exact (append_above (m := 8) _ d 24).trans <| (append_above (m := 8) _ c 16).trans <|
      (append_above (m := 8) _ b 8).trans <| (append_above (m := 8) _ a 0).trans (whole_field _)
  · have h3 : (packFrame ⟨st, a, b, c, d⟩).extractLsb' 0 8 = d := append_low _ d
    have h2 : (packFrame ⟨st, a, b, c, d⟩).extractLsb' 8 8 = c :=
      (append_above (m := 8) _ d 0).trans (append_low _ c)
    have h1 : (packFrame ⟨st, a, b, c, d⟩).extractLsb' 16 8 = b :=
      (append_above (m := 8) _ d 8).trans <| (append_above (m := 8) _ c 0).trans (append_low _ b)
    have h0 : (packFrame ⟨st, a, b, c, d⟩).extractLsb' 24 8 = a :=
      (append_above (m := 8) _ d 16).trans <| (append_above (m := 8) _ c 8).trans <|
        (append_above (m := 8) _ b 0).trans (append_low _ a)
    simp only [framePayload, h0, h1, h2, h3]

/-! ### Channels -/

theorem channelOf_of_lt {b : Byte} (h : b.toNat < 64) : channelOf b = some (b.extractLsb' 0 6) := if_pos h

theorem channelOf_of_ge {b : Byte} (h : 64 ≤ b.toNat) : channelOf b = none := if_neg (by omega)

theorem channelOf_eq_some {b : Byte} {c : Channel} : channelOf b = some c ↔ b.toNat < 64 ∧ c = b.extractLsb' 0 6 := by
  unfold channelOf; split <;> simp_all [eq_comm]

theorem channelOf_eq_none {b : Byte} : channelOf b = none ↔ 64 ≤ b.toNat := by
  unfold channelOf; split <;> simp_all

end Sys2Proof.Laws
end

