-- ==== Sys2Proof/Laws/State.lean ====
section
/-! SUPPORT. What each named update of the state leaves in each field. -/

namespace Sys2Proof.Machine

@[simp] theorem State.withEnc_enc (s : State) (e : Encoder) : (s.withEnc e).enc = e := rfl
@[simp] theorem State.withEnc_dec (s : State) (e : Encoder) : (s.withEnc e).dec = s.dec := rfl
@[simp] theorem State.withEnc_txn (s : State) (e : Encoder) : (s.withEnc e).txn = s.txn := rfl
@[simp] theorem State.withEnc_env (s : State) (e : Encoder) : (s.withEnc e).env = s.env := rfl
@[simp] theorem State.withEnc_call (s : State) (e : Encoder) : (s.withEnc e).call = s.call := rfl
@[simp] theorem State.withEnc_host (s : State) (e : Encoder) : (s.withEnc e).host = s.host := rfl
@[simp] theorem State.withEnc_res (s : State) (e : Encoder) : (s.withEnc e).res = s.res := rfl

@[simp] theorem State.withDec_enc (s : State) (d : Decoder) : (s.withDec d).enc = s.enc := rfl
@[simp] theorem State.withDec_dec (s : State) (d : Decoder) : (s.withDec d).dec = d := rfl
@[simp] theorem State.withDec_txn (s : State) (d : Decoder) : (s.withDec d).txn = s.txn := rfl
@[simp] theorem State.withDec_env (s : State) (d : Decoder) : (s.withDec d).env = s.env := rfl
@[simp] theorem State.withDec_call (s : State) (d : Decoder) : (s.withDec d).call = s.call := rfl
@[simp] theorem State.withDec_host (s : State) (d : Decoder) : (s.withDec d).host = s.host := rfl
@[simp] theorem State.withDec_res (s : State) (d : Decoder) : (s.withDec d).res = s.res := rfl

@[simp] theorem State.withTxn_enc (s : State) (x : Transact) : (s.withTxn x).enc = s.enc := rfl
@[simp] theorem State.withTxn_dec (s : State) (x : Transact) : (s.withTxn x).dec = s.dec := rfl
@[simp] theorem State.withTxn_txn (s : State) (x : Transact) : (s.withTxn x).txn = x := rfl
@[simp] theorem State.withTxn_env (s : State) (x : Transact) : (s.withTxn x).env = s.env := rfl
@[simp] theorem State.withTxn_call (s : State) (x : Transact) : (s.withTxn x).call = s.call := rfl
@[simp] theorem State.withTxn_host (s : State) (x : Transact) : (s.withTxn x).host = s.host := rfl
@[simp] theorem State.withTxn_res (s : State) (x : Transact) : (s.withTxn x).res = s.res := rfl

@[simp] theorem State.withEnv_enc (s : State) (v : Environment) : (s.withEnv v).enc = s.enc := rfl
@[simp] theorem State.withEnv_dec (s : State) (v : Environment) : (s.withEnv v).dec = s.dec := rfl
@[simp] theorem State.withEnv_txn (s : State) (v : Environment) : (s.withEnv v).txn = s.txn := rfl
@[simp] theorem State.withEnv_env (s : State) (v : Environment) : (s.withEnv v).env = v := rfl
@[simp] theorem State.withEnv_call (s : State) (v : Environment) : (s.withEnv v).call = s.call := rfl
@[simp] theorem State.withEnv_host (s : State) (v : Environment) : (s.withEnv v).host = s.host := rfl
@[simp] theorem State.withEnv_res (s : State) (v : Environment) : (s.withEnv v).res = s.res := rfl

@[simp] theorem State.withCall_enc (s : State) (c : Option Call) : (s.withCall c).enc = s.enc := rfl
@[simp] theorem State.withCall_dec (s : State) (c : Option Call) : (s.withCall c).dec = s.dec := rfl
@[simp] theorem State.withCall_txn (s : State) (c : Option Call) : (s.withCall c).txn = s.txn := rfl
@[simp] theorem State.withCall_env (s : State) (c : Option Call) : (s.withCall c).env = s.env := rfl
@[simp] theorem State.withCall_call (s : State) (c : Option Call) : (s.withCall c).call = c := rfl
@[simp] theorem State.withCall_host (s : State) (c : Option Call) : (s.withCall c).host = s.host := rfl
@[simp] theorem State.withCall_res (s : State) (c : Option Call) : (s.withCall c).res = s.res := rfl

@[simp] theorem State.withHost_enc (s : State) (h : List HostInput) : (s.withHost h).enc = s.enc := rfl
@[simp] theorem State.withHost_dec (s : State) (h : List HostInput) : (s.withHost h).dec = s.dec := rfl
@[simp] theorem State.withHost_txn (s : State) (h : List HostInput) : (s.withHost h).txn = s.txn := rfl
@[simp] theorem State.withHost_env (s : State) (h : List HostInput) : (s.withHost h).env = s.env := rfl
@[simp] theorem State.withHost_call (s : State) (h : List HostInput) : (s.withHost h).call = s.call := rfl
@[simp] theorem State.withHost_host (s : State) (h : List HostInput) : (s.withHost h).host = h := rfl
@[simp] theorem State.withHost_res (s : State) (h : List HostInput) : (s.withHost h).res = s.res := rfl

@[simp] theorem State.withRes_enc (s : State) (r : Option Res) : (s.withRes r).enc = s.enc := rfl
@[simp] theorem State.withRes_dec (s : State) (r : Option Res) : (s.withRes r).dec = s.dec := rfl
@[simp] theorem State.withRes_txn (s : State) (r : Option Res) : (s.withRes r).txn = s.txn := rfl
@[simp] theorem State.withRes_env (s : State) (r : Option Res) : (s.withRes r).env = s.env := rfl
@[simp] theorem State.withRes_call (s : State) (r : Option Res) : (s.withRes r).call = s.call := rfl
@[simp] theorem State.withRes_host (s : State) (r : Option Res) : (s.withRes r).host = s.host := rfl
@[simp] theorem State.withRes_res (s : State) (r : Option Res) : (s.withRes r).res = r := rfl

end Sys2Proof.Machine
end

