-- ==== Sys2Proof/Laws/Ops.lean ====
section
/-! SUPPORT. For each shared operation, once, everything it can answer: cite these instead of unfolding it. -/

namespace Sys2Proof.Laws

open Sys2Proof.Machine

/-! ### How an operation ends -/

theorem endWith_eq_next {r : Res} {s t : State} : endWith r s = .next t ↔ t = s.withRes (some r) := by
  simp [endWith, eq_comm]

theorem thenDo_eq_next {f : State → State} {o : StepOutcome} {t : State} :
    thenDo f o = .next t ↔ ∃ u, o = .next u ∧ t = f u := by
  cases o <;> simp [thenDo, eq_comm]

theorem withFrameOperand_eq_next {w : BitVec 40} {k : Frame → StepOutcome} {t : State} :
    withFrameOperand w k = .next t ↔ ∃ f, unpackFrame w = some f ∧ k f = .next t := by
  unfold withFrameOperand; cases unpackFrame w <;> simp

theorem withFrameOperand_of_some {w : BitVec 40} {f : Frame} (h : unpackFrame w = some f) (k : Frame → StepOutcome) :
    withFrameOperand w k = k f := by simp [withFrameOperand, h]

theorem withFrameOperand_of_none {w : BitVec 40} (h : unpackFrame w = none) (k : Frame → StepOutcome) :
    withFrameOperand w k = .refused (.notAStartByte (frameStartField w)) := by simp [withFrameOperand, h]

theorem withStartOperand_eq_next {b : Byte} {k : StartByte → StepOutcome} {t : State} :
    withStartOperand b k = .next t ↔ ∃ st, startOf b = some st ∧ k st = .next t := by
  unfold withStartOperand; cases startOf b <;> simp

theorem withStartOperand_of_some {b : Byte} {st : StartByte} (h : startOf b = some st) (k : StartByte → StepOutcome) :
    withStartOperand b k = k st := by simp [withStartOperand, h]

theorem withStartOperand_of_none {b : Byte} (h : startOf b = none) (k : StartByte → StepOutcome) :
    withStartOperand b k = .refused (.notAStartByte b) := by simp [withStartOperand, h]

theorem withChannelOperand_eq_next {b : Byte} {k : Channel → StepOutcome} {t : State} :
    withChannelOperand b k = .next t ↔ ∃ c, channelOf b = some c ∧ k c = .next t := by
  unfold withChannelOperand; cases channelOf b <;> simp

theorem withChannelOperand_of_some {b : Byte} {c : Channel} (h : channelOf b = some c) (k : Channel → StepOutcome) :
    withChannelOperand b k = k c := by simp [withChannelOperand, h]

theorem withChannelOperand_of_none {b : Byte} (h : channelOf b = none) (k : Channel → StepOutcome) :
    withChannelOperand b k = .refused (.notAChannel b) := by simp [withChannelOperand, h]

/-! ### The encoder -/

/-- `emitStuffed` emits the byte once, or the first or the second 0x1B of a pair (R145). -/
theorem emitStuffed_cases (v : Byte) (n : EncState) (e : Encoder) :
    (v ≠ Config.esc ∧ emitStuffed v n e = (some v, { e with state := n })) ∨
    (v = Config.esc ∧ e.dup = false ∧ emitStuffed v n e = (some Config.esc, { e with dup := true })) ∨
    (v = Config.esc ∧ e.dup = true ∧ emitStuffed v n e = (some Config.esc, { e with dup := false, state := n })) := by
  unfold emitStuffed; by_cases h : v = Config.esc <;> cases e.dup <;> simp [h]

/-- `ENC.NEXT` never writes the latch (R140). -/
theorem encoderNext_latch (e : Encoder) : (encoderNext e).2.start = e.start ∧ (encoderNext e).2.pl = e.pl := by
  unfold encoderNext emitStuffed; split <;> first | exact ⟨rfl, rfl⟩ | (split_ifs <;> exact ⟨rfl, rfl⟩)

/-- `ENC.NEXT` returns `None` exactly in `Finished` (R149). -/
theorem encoderNext_none {e : Encoder} : (encoderNext e).1 = none ↔ e.state = .finished := by
  unfold encoderNext emitStuffed; split <;> rename_i h <;> (try split_ifs) <;> simp [h]

/-! ### The decoder -/

/-- R164, by the escape flag and the byte. -/
theorem pushData_cases (put : Byte → Decoder) (n : DecState) (b : Byte) (d : Decoder) :
    (d.escPend = false ∧ b = Config.esc ∧ pushData put n b d = (.more, { d with escPend := true })) ∨
    (d.escPend = false ∧ b ≠ Config.esc ∧ pushData put n b d = (.more, { put b with state := n })) ∨
    (d.escPend = true ∧ b = Config.esc ∧
      pushData put n b d = (.more, { put Config.esc with escPend := false, state := n })) ∨
    (d.escPend = true ∧ b ≠ Config.esc ∧
      pushData put n b d = (.err .checksumIsEscButNotDuplicated, decoderInit d)) := by
  unfold pushData; by_cases h : b = Config.esc <;> cases d.escPend <;> simp [h]

/-- R168: a frame if the checksum matches, else `InvalidChecksum`; the decoder is reset either way. -/
theorem compareChecksum_cases (r : Byte) (d : Decoder) :
    (checksum (startValue d.start) d.buf = r ∧ compareChecksum r d = (.frame ⟨d.start, d.buf⟩, decoderInit d)) ∨
    (checksum (startValue d.start) d.buf ≠ r ∧
      compareChecksum r d = (.err (.invalidChecksum (checksum (startValue d.start) d.buf) r), decoderInit d)) := by
  unfold compareChecksum; split_ifs with h <;> simp [h]

/-- R167, by the escape flag and the byte. -/
theorem pushChecksum_cases (b : Byte) (d : Decoder) :
    (d.escPend = false ∧ b = Config.esc ∧ pushChecksum b d = (.more, { d with escPend := true })) ∨
    ((d.escPend = true ↔ b = Config.esc) ∧ pushChecksum b d = compareChecksum b d) ∨
    (d.escPend = true ∧ b ≠ Config.esc ∧
      pushChecksum b d = (.err .checksumIsEscButNotDuplicated, decoderInit d)) := by
  unfold pushChecksum; by_cases h : b = Config.esc <;> cases d.escPend <;> simp [h]

/-- R163: a start byte is latched, any other byte is an error. -/
theorem pushStartByte_cases (b : Byte) (d : Decoder) :
    (∃ st, startOf b = some st ∧
      pushStartByte b d = (.more, { d with start := st, state := .directionAndChannel })) ∨
    (startOf b = none ∧ pushStartByte b d = (.err (.invalidStartByte b), decoderInit d)) := by
  unfold pushStartByte; cases startOf b <;> simp

/-- R166: `ETX`, a fifth payload byte that is stuffed, or anything else. -/
theorem pushEtxByte_cases (b : Byte) (d : Decoder) :
    (b = Config.etx ∧ pushEtxByte b d = (.more, { d with state := .checksum })) ∨
    (b = Config.esc ∧ pushEtxByte b d = (.err .bufferOverFlow, decoderInit d)) ∨
    (b ≠ Config.etx ∧ b ≠ Config.esc ∧
      pushEtxByte b d = (.err (.expectedEtxOrEscDupButFoundOtherThing b), decoderInit d)) := by
  unfold pushEtxByte; split_ifs with h1 h2
  · exact .inl ⟨h1, rfl⟩
  · exact .inr (.inl ⟨h2, rfl⟩)
  · exact .inr (.inr ⟨h1, h2, rfl⟩)

/-- A push faults exactly in the two transient states (U2a). -/
theorem decoderPush_error {b : Byte} {d : Decoder} {e : Fault} :
    decoderPush b d = .error e ↔ d.state = .successful ∨ d.state = .error := by
  cases e; unfold decoderPush; split <;> simp_all

theorem pushStandalone_eq_next {b : Byte} {s t : State} :
    pushStandalone b s = .next t ↔
      ∃ o d, decoderPush b s.dec = .ok (o, d) ∧ t = (s.withDec d).withRes (some (.push o)) := by
  unfold pushStandalone; rcases decoderPush b s.dec with e | ⟨o, d⟩ <;> simp [endWith, eq_comm]

theorem decoderPushAll_cons_ok {b : Byte} {bs : List Byte} {d d2 : Decoder} {os : List PushOutcome} :
    decoderPushAll (b :: bs) d = .ok (os, d2) ↔
      ∃ o d1 os1, decoderPush b d = .ok (o, d1) ∧ decoderPushAll bs d1 = .ok (os1, d2) ∧ os = o :: os1 := by
  rw [decoderPushAll]
  rcases decoderPush b d with e | ⟨o, d1⟩ <;> simp
  rcases decoderPushAll bs d1 with e | ⟨os1, d3⟩ <;> simp [eq_comm, and_comm]

theorem receiveFrame_eq_next {st : Byte} {p : Payload} {k : Byte} {s t : State} :
    receiveFrame st p k s = .next t ↔
      ∃ os d, decoderPushAll (physicalForm st p k) s.dec = .ok (os, d) ∧
        t = (s.withDec d).withRes (some (.pushes os)) := by
  unfold receiveFrame; rcases decoderPushAll (physicalForm st p k) s.dec with e | ⟨o, d⟩ <;> simp [endWith, eq_comm]

/-! ### The environment -/

/-- A poll takes the next fixed answer, or draws a free one. -/
theorem connPoll_cases (v : Environment) :
    (∃ a rest, v.answers = a :: rest ∧
      connPoll v = (a, { v with answers := rest, trace := v.trace ++ pollCalls a })) ∨
    (v.answers = [] ∧ connPoll v =
      (freeAnswer v.draws, { v with draws := v.draws + 1, trace := v.trace ++ pollCalls (freeAnswer v.draws) })) := by
  obtain ⟨tx, dl, tr, ans, dr⟩ := v
  cases ans with
  | nil => exact .inr ⟨rfl, rfl⟩
  | cons a rest => exact .inl ⟨a, rest, rfl, rfl⟩

/-- A poll adds its calls to the trace and leaves the two logs. -/
theorem connPoll_logs (v : Environment) :
    (connPoll v).2.trace = v.trace ++ pollCalls (connPoll v).1 ∧ (connPoll v).2.txlog = v.txlog ∧
    (connPoll v).2.delays = v.delays := by
  rcases connPoll_cases v with ⟨a, rest, _, h⟩ | ⟨_, h⟩ <;> rw [h] <;> exact ⟨rfl, rfl, rfl⟩

/-! ### The transact unit -/

theorem transactStart_eq_next {f : Frame} {t : Micros} {s u : State} :
    transactStart f t s = .next u ↔
      (s.txn.phase ≠ .send ∧ s.txn.phase ≠ .poll) ∧ t ≠ Config.timeoutNotAdmitted ∧
        u = s.withTxn (startedTransact f t s.txn) := by
  unfold transactStart; split_ifs with h1 h2
  · exact iff_of_false (by simp) (fun h => h1.elim h.1.1 h.1.2)
  · simp [h2]
  · rw [not_or] at h1; simp [h1, h2, eq_comm]

theorem stepSend_eq_next {s t : State} :
    stepSend s = .next t ↔
      (∃ b, (encoderNext s.txn.enc).1 = some b ∧
        t = (s.withTxn { s.txn with enc := (encoderNext s.txn.enc).2 }).withEnv (connTransmit b s.env)) ∨
      ((encoderNext s.txn.enc).1 = none ∧
        t = s.withTxn { s.txn with enc := (encoderNext s.txn.enc).2, phase := .poll }) := by
  unfold stepSend; rcases encoderNext s.txn.enc with ⟨_ | b, e⟩ <;> simp [eq_comm]

theorem stepPoll_eq_next {s t : State} :
    stepPoll s = .next t ↔
      (∃ b o d, (connPoll s.env).1 = .byte b ∧ decoderPush b s.txn.dec = .ok (o, d) ∧
        t = (s.withTxn (afterVerdict o d s.txn)).withEnv (connPoll s.env).2) ∨
      ((connPoll s.env).1 = .idle ∧
        t = (s.withTxn (afterIdlePoll s.txn)).withEnv (delayUs Config.pollDelayUs (connPoll s.env).2)) := by
  unfold stepPoll; rcases connPoll s.env with ⟨_ | b, v⟩
  · simp [eq_comm]
  · rcases h : decoderPush b s.txn.dec with e | ⟨o, d⟩ <;> simp [h, eq_comm]

theorem transactStep_eq_next {s t : State} :
    transactStep s = .next t ↔
      (s.txn.phase = .send ∧ stepSend s = .next t) ∨ (s.txn.phase = .poll ∧ stepPoll s = .next t) := by
  unfold transactStep; cases s.txn.phase <;> simp

/-- A blocking call returns exactly when the exchange is `Done` with an outcome (R199). -/
theorem finishCall_cases (c : Call) (s : State) :
    (∃ r, s.txn.phase = .done ∧ s.txn.result = some r ∧
      finishCall c s = (s.withCall none).withRes (some (callOutcome c r))) ∨
    ((s.txn.phase ≠ .done ∨ s.txn.result = none) ∧ finishCall c s = s) := by
  unfold finishCall; cases s.txn.phase <;> cases s.txn.result <;> simp

/-- The return of a call touches no register of the transact unit. -/
@[simp] theorem finishCall_txn (c : Call) (s : State) : (finishCall c s).txn = s.txn := by
  rcases finishCall_cases c s with ⟨_, _, _, h⟩ | ⟨_, h⟩ <;> simp [h]

theorem advanceCall_eq_next {c : Call} {s t : State} :
    advanceCall c s = .next t ↔ ∃ u, transactStep s = .next u ∧ t = finishCall c u := thenDo_eq_next

theorem beginCall_eq_next {c : Call} {f : Frame} {t : Micros} {s u : State} :
    beginCall c f t s = .next u ↔
      (s.txn.phase ≠ .send ∧ s.txn.phase ≠ .poll) ∧ t ≠ Config.timeoutNotAdmitted ∧
        u = (s.withTxn (startedTransact f t s.txn)).withCall (some c) := by
  simp only [beginCall, thenDo_eq_next, transactStart_eq_next]
  constructor
  · rintro ⟨v, ⟨h1, h2, rfl⟩, rfl⟩; exact ⟨h1, h2, rfl⟩
  · rintro ⟨h1, h2, rfl⟩; exact ⟨_, ⟨h1, h2, rfl⟩, rfl⟩

/-! ### The step -/

/-- Everything a step can do: a call goes on, nothing is pending, a reset, or an invocation of a decoded instruction. -/
theorem step_eq_next {s t : State} :
    step s = .next t ↔
      (∃ c, s.call = some c ∧ advanceCall c s = .next t) ∨
      (s.call = none ∧ s.host = [] ∧ t = s) ∨
      (∃ rest, s.call = none ∧ s.host = .reset :: rest ∧ t = resetEvent (s.withHost rest)) ∨
      (∃ r rest i, s.call = none ∧ s.host = .invoke r :: rest ∧ decode r = .ok i ∧
        exec i (s.withHost rest) = .next t) := by
  unfold step
  cases s.call with
  | some c => simp
  | none =>
    rcases s.host with _ | ⟨_ | _, rest⟩
    · simp only [Host.Outcome.next.injEq]; simp [eq_comm (a := s)]
    · rename_i r; cases h : decode r <;> simp [h]
    · simp only [Host.Outcome.next.injEq]; simp [eq_comm (b := t)]

end Sys2Proof.Laws
end

