-- ==== Sys2Proof/Laws/PerInstr.lean ====
section
/-! SUPPORT. Facts about every instruction as syntax, one lemma per constructor. -/

namespace Sys2Proof.Laws

open Sys2Proof

/-- Masking two joined fields masks each. -/
theorem mask_joined {w v : Nat} {x m r : BitVec w} {y n s : BitVec v} (h : x &&& m = r) (k : y &&& n = s) :
    (x ++ y) &&& (m ++ n) = r ++ s := by rw [BitVec.and_append, h, k]

/-- The fixed bytes of a frame row, cut out of the 72-bit pattern by the row's mask (R92). -/
theorem frame_row_bits (start d0 d1 d2 d3 chk : Byte) :
    ((Config.esc ++ start ++ d0 ++ d1 ++ d2 ++ d3 ++ Config.esc ++ Config.etx ++ chk : BitVec 72).toNat &&&
        0xFFFF00000000FFFF00) =
      (Config.esc ++ start ++ 0#8 ++ 0#8 ++ 0#8 ++ 0#8 ++ Config.esc ++ Config.etx ++ 0#8 : BitVec 72).toNat := by
  have mask : (0xFFFF00000000FFFF00#72) =
      (0xFF#8 ++ 0xFF#8 ++ 0#8 ++ 0#8 ++ 0#8 ++ 0#8 ++ 0xFF#8 ++ 0xFF#8 ++ 0#8 : BitVec 72) := by decide
  have keep : ∀ b : Byte, b &&& 0xFF#8 = b := fun b => by simpa using BitVec.and_allOnes (x := b)
  have drop : ∀ b : Byte, b &&& 0#8 = 0#8 := fun _ => BitVec.and_zero
  have toBits (x : BitVec 72) : (x.toNat &&& 0xFFFF00000000FFFF00) = (x &&& 0xFFFF00000000FFFF00#72).toNat := by simp
  rw [toBits, mask]
  exact congrArg BitVec.toNat (mask_joined (mask_joined (mask_joined (mask_joined (mask_joined (mask_joined (mask_joined
    (mask_joined (keep _) (keep _)) (drop _)) (drop _)) (drop _)) (drop _)) (keep _)) (keep _)) (drop _))

/-- The payload byte 0 of a message row carries its kind in bits 7:6 (R100, R101). -/
theorem message_row_bits : ∀ (k : Kind) (c : Channel), ((k ++ c : Byte).toNat &&& 0xC0) = k.toNat * 64 := by decide

/-- The `op` port of an operation row carries its code (R110). -/
theorem operation_row_bits : ∀ op : BitVec 5, (op.toNat &&& 0x1F) = op.toNat := by decide

namespace EncodesRow

/-- The encoding of an instruction agrees with its row of the opcode table on the row's format and fixed bits (R114). -/
def Statement (i : Instr) : Prop := ∀ row, opcodeTable[rowIndex i]? = some row → rowMatches row (encode i) = true

theorem esc : Statement .esc := by
  rintro row ⟨⟩
  rfl

theorem etx : Statement .etx := by
  rintro row ⟨⟩
  rfl

theorem stx : Statement .stx := by
  rintro row ⟨⟩
  rfl

theorem ack : Statement .ack := by
  rintro row ⟨⟩
  rfl

theorem nack : Statement .nack := by
  rintro row ⟨⟩
  rfl

theorem frameStx (d0 d1 d2 d3 chk : Byte) : Statement (.frameStx d0 d1 d2 d3 chk) := by
  rintro row ⟨⟩
  exact beq_iff_eq.mpr ((frame_row_bits Config.stx d0 d1 d2 d3 chk).trans (by decide))

theorem frameAck (d0 d1 d2 d3 chk : Byte) : Statement (.frameAck d0 d1 d2 d3 chk) := by
  rintro row ⟨⟩
  exact beq_iff_eq.mpr ((frame_row_bits Config.ack d0 d1 d2 d3 chk).trans (by decide))

theorem frameNack (d0 d1 d2 d3 chk : Byte) : Statement (.frameNack d0 d1 d2 d3 chk) := by
  rintro row ⟨⟩
  exact beq_iff_eq.mpr ((frame_row_bits Config.nack d0 d1 d2 d3 chk).trans (by decide))

theorem getword (channel : Channel) (waddr : Byte) (arg : Word) : Statement (.getword channel waddr arg) := by
  rintro row ⟨⟩
  exact beq_iff_eq.mpr (message_row_bits Config.kindGetWord channel)

theorem resetbitmask (channel : Channel) (waddr : Byte) (arg : Word) : Statement (.resetbitmask channel waddr arg) := by
  rintro row ⟨⟩
  exact beq_iff_eq.mpr (message_row_bits Config.kindResetBitmask channel)

theorem setbitmask (channel : Channel) (waddr : Byte) (arg : Word) : Statement (.setbitmask channel waddr arg) := by
  rintro row ⟨⟩
  exact beq_iff_eq.mpr (message_row_bits Config.kindSetBitmask channel)

theorem setword (channel : Channel) (waddr : Byte) (arg : Word) : Statement (.setword channel waddr arg) := by
  rintro row ⟨⟩
  exact beq_iff_eq.mpr (message_row_bits Config.kindSetWord channel)

theorem chkCalc (frame : BitVec 40) : Statement (.chkCalc frame) := by
  rintro row ⟨⟩
  exact beq_iff_eq.mpr (operation_row_bits _)

theorem encLoad (frame : BitVec 40) : Statement (.encLoad frame) := by
  rintro row ⟨⟩
  exact beq_iff_eq.mpr (operation_row_bits _)

theorem encNext : Statement .encNext := by
  rintro row ⟨⟩
  exact beq_iff_eq.mpr (operation_row_bits _)

theorem decInit : Statement .decInit := by
  rintro row ⟨⟩
  exact beq_iff_eq.mpr (operation_row_bits _)

theorem decPush (byte : Byte) : Statement (.decPush byte) := by
  rintro row ⟨⟩
  exact beq_iff_eq.mpr (operation_row_bits _)

theorem txnStart (frame : BitVec 40) (timeout : Micros) : Statement (.txnStart frame timeout) := by
  rintro row ⟨⟩
  exact beq_iff_eq.mpr (operation_row_bits _)

theorem txnStep : Statement .txnStep := by
  rintro row ⟨⟩
  exact beq_iff_eq.mpr (operation_row_bits _)

theorem txnRun (frame : BitVec 40) (timeout : Micros) : Statement (.txnRun frame timeout) := by
  rintro row ⟨⟩
  exact beq_iff_eq.mpr (operation_row_bits _)

theorem sbFrom (byte : Byte) : Statement (.sbFrom byte) := by
  rintro row ⟨⟩
  exact beq_iff_eq.mpr (operation_row_bits _)

theorem sbTomaster (byte : Byte) : Statement (.sbTomaster byte) := by
  rintro row ⟨⟩
  exact beq_iff_eq.mpr (operation_row_bits _)

theorem sbToslave (byte : Byte) : Statement (.sbToslave byte) := by
  rintro row ⟨⟩
  exact beq_iff_eq.mpr (operation_row_bits _)

theorem frToslave (frame : BitVec 40) : Statement (.frToslave frame) := by
  rintro row ⟨⟩
  exact beq_iff_eq.mpr (operation_row_bits _)

theorem chFrom (byte : Byte) : Statement (.chFrom byte) := by
  rintro row ⟨⟩
  exact beq_iff_eq.mpr (operation_row_bits _)

theorem chIszero (byte : Byte) : Statement (.chIszero byte) := by
  rintro row ⟨⟩
  exact beq_iff_eq.mpr (operation_row_bits _)

theorem w16Split (w16 : Word) : Statement (.w16Split w16) := by
  rintro row ⟨⟩
  exact beq_iff_eq.mpr (operation_row_bits _)

theorem w16Join (w16 : Word) : Statement (.w16Join w16) := by
  rintro row ⟨⟩
  exact beq_iff_eq.mpr (operation_row_bits _)

theorem w16Bit (w16 : Word) (pos : BitVec 4) : Statement (.w16Bit w16 pos) := by
  rintro row ⟨⟩
  exact beq_iff_eq.mpr (operation_row_bits _)

theorem tlMkframe (byte : Byte) (kind : Kind) (waddr : Byte) (w16 : Word) : Statement (.tlMkframe byte kind waddr w16) := by
  rintro row ⟨⟩
  exact beq_iff_eq.mpr (operation_row_bits _)

theorem plSplit0 (byte : Byte) : Statement (.plSplit0 byte) := by
  rintro row ⟨⟩
  exact beq_iff_eq.mpr (operation_row_bits _)

theorem tlXpkt (byte : Byte) (kind : Kind) (waddr : Byte) (w16 : Word) (timeout : Micros) : Statement (.tlXpkt byte kind waddr w16 timeout) := by
  rintro row ⟨⟩
  exact beq_iff_eq.mpr (operation_row_bits _)

end EncodesRow

end Sys2Proof.Laws
end

