-- ==== Sys2Proof/Tests/Slice0.lean ====
section
/-! SUPPORT. Tests of the model. Expected values come from the worked examples of `spec/` and from `95_test_vectors.md`, or
are computed by hand from the rules; a test's comment says which. -/

namespace Sys2Proof.Tests

open Sys2Proof Sys2Proof.Machine Sys2Proof.Safety

/-! ### Helpers -/

/-- The next state of an outcome. -/
def nextOf : StepOutcome → Option State
  | .next s => some s
  | .fault _ => none
  | .refused _ => none

/-- The refusal of an outcome. -/
def refusalOf : StepOutcome → Option Refusal
  | .next _ => none
  | .fault _ => none
  | .refused r => some r

/-- The outcome on the port `res` after an instruction. -/
def resAfter (i : Instr) (s : State) : Option Res := (nextOf (exec i s)).bind fun t => t.res

/-- The standalone decoder after an instruction. -/
def decAfter (i : Instr) (s : State) : Option Decoder := (nextOf (exec i s)).map fun t => t.dec

/-- The standalone encoder after an instruction. -/
def encAfter (i : Instr) (s : State) : Option Encoder := (nextOf (exec i s)).map fun t => t.enc

/-- The transact unit after an instruction. -/
def txnAfter (i : Instr) (s : State) : Option Transact := (nextOf (exec i s)).map fun t => t.txn

/-- The source's first frame, `STX[C1 50 61 02]`. -/
def request : Frame := ⟨.stx, ⟨0xC1#8, 0x50#8, 0x61#8, 0x02#8⟩⟩

/-- The source's second frame, `ACK[01 86 03 1B]`. -/
def response : Frame := ⟨.ack, ⟨0x01#8, 0x86#8, 0x03#8, 0x1B#8⟩⟩

/-- The reset state with a standalone decoder in the given state. -/
def decoding (st : DecState) (pend : Bool) (f : Frame) : State := { State.reset with dec := ⟨st, pend, f.start, f.payload⟩ }

/-- The reset state with a standalone encoder in the given state. -/
def encoding (st : EncState) (dup : Bool) (f : Frame) : State := { State.reset with enc := ⟨st, dup, f.start, f.payload⟩ }

/-- An exchange of `request` that polls: a timeout, a count so far, and the answers to come. -/
def polling (t e : Micros) (as : List PollAnswer) : State :=
  { State.reset with
    txn := { phase := .poll, timeout := t, elapsed := e, result := none,
             enc := ⟨.finished, false, request.start, request.payload⟩, dec := Decoder.reset }
    env := { Environment.reset with answers := as } }

/-- An exchange of `request` that has just begun. -/
def sending (t : Micros) : State := { State.reset with txn := startedTransact request t Transact.reset }

/-- The reset state with inputs of the host. -/
def invoked (h : List HostInput) : State := { State.reset with host := h }

/-! ### Ill-formed instructions, one for each check -/

theorem test_frame_rows_need_their_checksum :
    wellFormed (.frameStx 0xC1#8 0x50#8 0x61#8 0x02#8 0x87#8) = true ∧
    wellFormed (.frameStx 0xC1#8 0x50#8 0x61#8 0x02#8 0x88#8) = false ∧
    wellFormed (.frameAck 0x01#8 0x86#8 0x03#8 0x1B#8 0x51#8) = false ∧
    wellFormed (.frameNack 0x00#8 0x00#8 0x00#8 0x00#8 0x00#8) = false := by decide

theorem test_frame_operands_need_a_start_byte :
    wellFormed (.chkCalc 0x0000000000#40) = false ∧ wellFormed (.encLoad 0x1B00000000#40) = false ∧
    wellFormed (.txnStart 0x03C1506102#40 0#64) = false ∧ wellFormed (.txnRun 0xFFC1506102#40 0#64) = false ∧
    wellFormed (.frToslave 0x0700000000#40) = false := by decide

theorem test_timeouts_stop_short_of_the_maximum :
    wellFormed (.txnStart 0x02C1506102#40 0xFFFFFFFFFFFFFFFF#64) = false ∧
    wellFormed (.txnRun 0x02C1506102#40 0xFFFFFFFFFFFFFFFF#64) = false ∧
    wellFormed (.txnRun 0x02C1506102#40 0xFFFFFFFFFFFFFFFE#64) = true ∧
    wellFormed (.tlXpkt 0x3F#8 0#2 0#8 0#16 0xFFFFFFFFFFFFFFFF#64) = false ∧
    wellFormed (.tlXpkt 0x40#8 0#2 0#8 0#16 0xFFFFFFFFFFFFFFFF#64) = true := by decide

theorem test_start_byte_operands_are_legal :
    wellFormed (.sbTomaster 0x01#8) = false ∧ wellFormed (.sbToslave 0x1B#8) = false := by decide

theorem test_channel_operands_are_below_64 :
    wellFormed (.chIszero 0x40#8) = false ∧ wellFormed (.chIszero 0x3F#8) = true ∧
    wellFormed (.tlMkframe 0x40#8 0#2 0#8 0#16) = false := by decide

/-! ### Decoding: one written word for every constructor -/

/-- R90. -/
theorem test_decode_control :
    decode (.ctrl 0b00011011#8) = .ok .esc ∧ decode (.ctrl 0b00000011#8) = .ok .etx ∧
    decode (.ctrl 0b00000010#8) = .error (.notAControlByte 0x02#8) := by decide

/-- R91, R104. -/
theorem test_decode_start :
    decode (.start 0b00000010#8) = .ok .stx ∧ decode (.start 0b00000110#8) = .ok .ack ∧
    decode (.start 0b00010101#8) = .ok .nack ∧ decode (.start 0x1B#8) = .error (.notAStartByte 0x1B#8) := by decide

/-- R92: `95_test_vectors.md` V1's bytes and two more, and a pattern without its final `ESC`. -/
theorem test_decode_frame :
    decode (.frame 0x1B02C15061021B0387#72) = .ok (.frameStx 0xC1#8 0x50#8 0x61#8 0x02#8 0x87#8) ∧
    decode (.frame 0x1B060186031B1B0352#72) = .ok (.frameAck 0x01#8 0x86#8 0x03#8 0x1B#8 0x52#8) ∧
    decode (.frame 0x1B15000000001B03E8#72) = .ok (.frameNack 0#8 0#8 0#8 0#8 0xE8#8) ∧
    decode (.frame 0x1B02C15061021A0387#72) = .error (.notAFramePattern 0x1B02C15061021A0387#72) := by decide

/-- R99 to R102: kind in bits 7:6, channel in bits 5:0, argument low byte first. -/
theorem test_decode_message :
    decode (.msg 0b00000101#8 0x10#8 0x00#8 0x00#8) = .ok (.getword 5#6 0x10#8 0x0000#16) ∧
    decode (.msg 0b01000000#8 0x1B#8 0x1B#8 0x1C#8) = .ok (.resetbitmask 0#6 0x1B#8 0x1C1B#16) ∧
    decode (.msg 0b10111111#8 0xFF#8 0x01#8 0x80#8) = .ok (.setbitmask 63#6 0xFF#8 0x8001#16) ∧
    decode (.msg 0b11000001#8 0x50#8 0x61#8 0x02#8) = .ok (.setword 1#6 0x50#8 0x0261#16) := by decide

/-- Every operation port at a value of its own. -/
def ports (op : BitVec 5) : Ports := ⟨op, 0x02C1506102#40, 0x2A#8, 1000#64, 3#2, 0x50#8, 0x0261#16, 9#4⟩

/-- R110, codes 0x00 to 0x09. -/
theorem test_decode_operation_low_codes :
    decode (.op (ports 0b00000#5)) = .ok (.chkCalc 0x02C1506102#40) ∧
    decode (.op (ports 0b00001#5)) = .ok (.encLoad 0x02C1506102#40) ∧
    decode (.op (ports 0b00010#5)) = .ok .encNext ∧
    decode (.op (ports 0b00011#5)) = .ok .decInit ∧
    decode (.op (ports 0b00100#5)) = .ok (.decPush 0x2A#8) ∧
    decode (.op (ports 0b00101#5)) = .ok (.txnStart 0x02C1506102#40 1000#64) ∧
    decode (.op (ports 0b00110#5)) = .ok .txnStep ∧
    decode (.op (ports 0b00111#5)) = .ok (.txnRun 0x02C1506102#40 1000#64) ∧
    decode (.op (ports 0b01000#5)) = .ok (.sbFrom 0x2A#8) ∧
    decode (.op (ports 0b01001#5)) = .ok (.sbTomaster 0x2A#8) := by decide

/-- R110, codes 0x0A to 0x14; the last is unassigned (U1). -/
theorem test_decode_operation_high_codes :
    decode (.op (ports 0b01010#5)) = .ok (.sbToslave 0x2A#8) ∧
    decode (.op (ports 0b01011#5)) = .ok (.frToslave 0x02C1506102#40) ∧
    decode (.op (ports 0b01100#5)) = .ok (.chFrom 0x2A#8) ∧
    decode (.op (ports 0b01101#5)) = .ok (.chIszero 0x2A#8) ∧
    decode (.op (ports 0b01110#5)) = .ok (.w16Split 0x0261#16) ∧
    decode (.op (ports 0b01111#5)) = .ok (.w16Join 0x0261#16) ∧
    decode (.op (ports 0b10000#5)) = .ok (.w16Bit 0x0261#16 9#4) ∧
    decode (.op (ports 0b10001#5)) = .ok (.tlMkframe 0x2A#8 3#2 0x50#8 0x0261#16) ∧
    decode (.op (ports 0b10010#5)) = .ok (.plSplit0 0x2A#8) ∧
    decode (.op (ports 0b10011#5)) = .ok (.tlXpkt 0x2A#8 3#2 0x50#8 0x0261#16 1000#64) ∧
    decode (.op (ports 0b10100#5)) = .error (.unassignedOperation 0x14#5) := by decide

/-- The table's numbering: the first byte of a frame row is bits 7:0 of its word. -/
theorem test_table_words :
    decodeTableWord 72 0x87031B026150C1021B = some (.frameStx 0xC1#8 0x50#8 0x61#8 0x02#8 0x87#8) ∧
    decodeTableWord 8 0x13 = some (.tlXpkt 0#8 0#2 0#8 0#16 0#64) ∧ decodeTableWord 8 0x15 = some .nack ∧
    decodeTableWord 8 0x1B = some .esc ∧ decodeTableWord 8 0xC1 = some (.setword 1#6 0#8 0#16) := by decide

/-! ### Meanings: CTRL, START and FRAME rows -/

/-- R162, and R163's corner case of a second `ESC`. -/
theorem test_esc :
    decAfter .esc State.reset = some ⟨.startByte, false, .stx, Payload.reset⟩ ∧
    resAfter .esc (decoding .startByte false request) = some (.push (.err (.invalidStartByte 0x1B#8))) := by decide

/-- R166, and R164's corner case `1B 03`. -/
theorem test_etx :
    decAfter .etx (decoding .etxByte false request) = some ⟨.checksum, false, .stx, request.payload⟩ ∧
    resAfter .etx (decoding .command true request) = some (.push (.err .checksumIsEscButNotDuplicated)) := by decide

/-- R163. -/
theorem test_stx :
    decAfter .stx (decoding .startByte false response) = some ⟨.directionAndChannel, false, .stx, response.payload⟩ := by
  decide

/-- R163. -/
theorem test_ack :
    decAfter .ack (decoding .startByte false request) = some ⟨.directionAndChannel, false, .ack, request.payload⟩ := by
  decide

/-- R163, and R165's fifth payload byte. -/
theorem test_nack :
    decAfter .nack (decoding .startByte false request) = some ⟨.directionAndChannel, false, .nack, request.payload⟩ ∧
    resAfter .nack (decoding .finalEsc false request) = some (.push (.err .bufferOverFlow)) := by decide

/-- The source's first vector: nine bytes, the frame on the last. -/
theorem test_frame_stx :
    resAfter (.frameStx 0xC1#8 0x50#8 0x61#8 0x02#8 0x87#8) State.reset =
      some (.pushes (List.replicate 8 .more ++ [.frame request])) := by decide

/-- The source's second vector: ten bytes, one payload byte doubled. -/
theorem test_frame_ack :
    resAfter (.frameAck 0x01#8 0x86#8 0x03#8 0x1B#8 0x52#8) State.reset =
      some (.pushes (List.replicate 9 .more ++ [.frame response])) := by decide

/-- R168: `NACK[00 00 00 00]` has checksum 0xE8 (0x15 + 0x03 = 0x18). -/
theorem test_frame_nack_bad_checksum :
    resAfter (.frameNack 0#8 0#8 0#8 0#8 0xE7#8) State.reset =
      some (.pushes (List.replicate 8 .more ++ [.err (.invalidChecksum 0xE8#8 0xE7#8)])) := by decide

/-! ### Meanings: MSG rows, from the worked examples of R232 to R235 -/

theorem test_getword :
    resAfter (.getword 5#6 0x10#8 0xFFFF#16) State.reset = some (.frame ⟨.stx, ⟨0x05#8, 0x10#8, 0#8, 0#8⟩⟩) := by decide

theorem test_resetbitmask :
    resAfter (.resetbitmask 0#6 0x1B#8 0x1B1B#16) State.reset =
      some (.frame ⟨.stx, ⟨0x40#8, 0x1B#8, 0x1B#8, 0x1B#8⟩⟩) := by decide

theorem test_setbitmask :
    resAfter (.setbitmask 63#6 0xFF#8 0x8001#16) State.reset =
      some (.frame ⟨.stx, ⟨0xBF#8, 0xFF#8, 0x01#8, 0x80#8⟩⟩) := by decide

theorem test_setword : resAfter (.setword 1#6 0x50#8 0x0261#16) State.reset = some (.frame request) := by decide

/-! ### Meanings: CHK, ENC, DEC -/

/-- R131's worked example and its corner case 0x1B. -/
theorem test_chk_calc :
    resAfter (.chkCalc 0x02C1506102#40) State.reset = some (.byte 0x87#8) ∧
    resAfter (.chkCalc 0x02000000E0#40) State.reset = some (.byte 0x1B#8) := by decide

/-- R141's worked example. -/
theorem test_enc_load :
    encAfter (.encLoad 0x02C1506102#40) State.reset = some ⟨.waitingFirstEsc, false, .stx, request.payload⟩ := by decide

/-- R149 after reset; R148's first and second 0x1B of a doubled checksum. -/
theorem test_enc_next :
    resAfter .encNext State.reset = some (.nextByte none) ∧
    (encAfter .encNext (encoding .waitingChecksum false ⟨.stx, ⟨0#8, 0#8, 0#8, 0xE0#8⟩⟩)).map (fun e => (e.state, e.dup)) =
      some (.waitingChecksum, true) ∧
    (encAfter .encNext (encoding .waitingChecksum true ⟨.stx, ⟨0#8, 0#8, 0#8, 0xE0#8⟩⟩)).map (fun e => (e.state, e.dup)) =
      some (.finished, false) := by decide

/-- R161's worked example. -/
theorem test_dec_init :
    decAfter .decInit (decoding .directionAndChannel true request) =
      some ⟨.initialEsc, false, .stx, request.payload⟩ := by decide

/-- R168's worked example. -/
theorem test_dec_push :
    resAfter (.decPush 0x87#8) (decoding .checksum false request) = some (.push (.frame request)) ∧
    resAfter (.decPush 0x88#8) (decoding .checksum false request) =
      some (.push (.err (.invalidChecksum 0x87#8 0x88#8))) := by decide

/-! ### Meanings: TXN -/

/-- R191's worked example, and U3. -/
theorem test_txn_start :
    (txnAfter (.txnStart 0x02C1506102#40 1000#64) State.reset).map
      (fun x => (x.phase, x.elapsed, x.timeout, x.enc.state)) = some (.send, 0#64, 1000#64, .waitingFirstEsc) ∧
    refusalOf (exec (.txnStart 0x02C1506102#40 1000#64) (sending 0#64)) = some .exchangeInProgress := by decide

/-- R196's worked example: the ready checksum byte of `ACK[01 86 03 1B]` with three idle polls counted. -/
theorem test_txn_step_completes :
    (txnAfter .txnStep { polling 10#64 3#64 [.byte 0x52#8] with
      txn := { (polling 10#64 3#64 []).txn with dec := ⟨.checksum, false, response.start, response.payload⟩ } }).map
      (fun x => (x.phase, x.result)) = some (.done, some (.ok ⟨response, 3#64⟩)) := by decide

/-- R197's worked example: with a timeout of 2 the third idle poll fails the exchange. -/
theorem test_txn_step_times_out :
    (txnAfter .txnStep (polling 2#64 1#64 [.idle])).map (fun x => x.phase) = some .poll ∧
    (txnAfter .txnStep (polling 2#64 2#64 [.idle])).map (fun x => x.result) =
      some (some (.error (.receptionTimeout 3#64))) := by decide

/-- R199, log entry 5: the call is in progress and has no outcome yet. -/
theorem test_txn_run :
    (nextOf (exec (.txnRun 0x02C1506102#40 0#64) State.reset)).map (fun s => (s.call, s.txn.phase, s.res)) =
      some (some .run, .send, none) := by decide

/-! ### Meanings: TL, from the worked examples of R222 to R237 -/

theorem test_sb_from :
    resAfter (.sbFrom 0x15#8) State.reset = some (.startByte (.ok .nack)) ∧
    resAfter (.sbFrom 0x16#8) State.reset = some (.startByte (.error (.invalidStartByte 0x16#8))) := by decide

theorem test_sb_tomaster :
    resAfter (.sbTomaster 0x06#8) State.reset = some (.masterStartByte (.error .notMasterStartByte)) ∧
    refusalOf (exec (.sbTomaster 0x16#8) State.reset) = some (.notAStartByte 0x16#8) := by decide

theorem test_sb_toslave :
    resAfter (.sbToslave 0x15#8) State.reset = some (.slaveStartByte (.ok .nack)) ∧
    resAfter (.sbToslave 0x02#8) State.reset = some (.slaveStartByte (.error .notSlaveStartByte)) := by decide

theorem test_fr_toslave :
    resAfter (.frToslave 0x060186031B#40) State.reset = some (.slaveFrame (.ok ⟨.ack, response.payload⟩)) ∧
    resAfter (.frToslave 0x02C1506102#40) State.reset = some (.slaveFrame (.error .notSlaveFrame)) := by decide

theorem test_ch_from :
    resAfter (.chFrom 0x3F#8) State.reset = some (.channel (.ok 63#6)) ∧
    resAfter (.chFrom 0x40#8) State.reset = some (.channel (.error .invalidChannel)) := by decide

theorem test_ch_iszero :
    resAfter (.chIszero 0#8) State.reset = some (.isZero true) ∧
    resAfter (.chIszero 1#8) State.reset = some (.isZero false) ∧
    refusalOf (exec (.chIszero 0x40#8) State.reset) = some (.notAChannel 0x40#8) := by decide

theorem test_w16_split : resAfter (.w16Split 0x0261#16) State.reset = some (.bytePair 0x61#8 0x02#8) := by decide

theorem test_w16_join : resAfter (.w16Join (0x02#8 ++ 0x61#8)) State.reset = some (.word 0x0261#16) := by decide

theorem test_w16_bit :
    resAfter (.w16Bit 0x0261#16 9#4) State.reset = some (.bit true) ∧
    resAfter (.w16Bit 0x0261#16 7#4) State.reset = some (.bit false) := by decide

theorem test_tl_mkframe :
    resAfter (.tlMkframe 0x3F#8 2#2 0xFF#8 0x8001#16) State.reset =
      some (.frame ⟨.stx, ⟨0xBF#8, 0xFF#8, 0x01#8, 0x80#8⟩⟩) ∧
    refusalOf (exec (.tlMkframe 0x40#8 2#2 0xFF#8 0x8001#16) State.reset) = some (.notAChannel 0x40#8) := by decide

theorem test_pl_split0 : resAfter (.plSplit0 0xC1#8) State.reset = some (.kindChannel 3#2 1#6) := by decide

theorem test_tl_xpkt :
    resAfter (.tlXpkt 0x40#8 0#2 0#8 0#16 1000#64) State.reset = some (.transport (.error .invalidChannel)) ∧
    (txnAfter (.tlXpkt 0x01#8 3#2 0x50#8 0x0261#16 1000#64) State.reset).map (fun x => (x.phase, x.enc.pl)) =
      some (.send, request.payload) := by decide

/-! ### The step -/

/-- R195's worked example: the first call of the exchange is `ConnTransmit(1B)`. -/
theorem test_step_of_a_call_transmits :
    (nextOf (step { sending 0#64 with call := some .run })).map (fun s => (s.env.txlog, s.call)) =
      some ([0x1B#8], some .run) := by decide

/-- R197 with a timeout of 0, and R199: the call returns. -/
theorem test_step_returns_the_outcome :
    (nextOf (step { polling 0#64 0#64 [.idle] with call := some .xpkt })).map (fun s => (s.res, s.call)) =
      some (some (.transport (.error (.datalink (.receptionTimeout 1#64)))), none) := by decide

/-- A word of the table runs as the first instruction after reset. -/
theorem test_fetched_word_runs :
    (nextOf (step (State.reset.withFetchWord 8 0x0E))).map (fun s => s.res) = some (some (.bytePair 0#8 0#8)) := by decide

/-! ### Witnesses: concrete states and operands that meet the hypotheses of the statements, clause by clause -/

theorem witness_EncodeDecodeOfPatterns :
    (∀ p, Request.ctrl 0x1B#8 ≠ .op p) ∧ decode (.ctrl 0x1B#8) = .ok .esc := ⟨fun _ h => (nomatch h), rfl⟩

theorem witness_DecodeFollowsTheTable :
    opcodeTable[31]? = some ⟨"TL.XPKT", 4, 0x1F, 0x13⟩ ∧ rowMatches ⟨"TL.XPKT", 4, 0x1F, 0x13⟩ (.op (ports 0x13#5)) = true := by
  decide

/-- The first and the last unassigned code. -/
theorem witness_UnassignedOperationRefused :
    (invoked [.invoke (.op (ports 0x14#5))]).call = none ∧ 0x14 ≤ (ports 0x14#5).op.toNat ∧ 0x14 ≤ (ports 0x1F#5).op.toNat := by
  decide

theorem witness_StepRunsTheDecodedInstruction :
    (invoked [invoking .encNext]).call = none ∧ (invoked [invoking .encNext]).host = .invoke (encode .encNext) :: [] ∧
    decode (encode .encNext) = .ok .encNext ∧ decodeTableWord 8 0x0E = some (.w16Split 0#16) := by decide

theorem witness_ResetEventEffect : (invoked [.reset]).call = none ∧ (invoked [.reset]).host = .reset :: [] := by decide

/-- A call that goes on, and a call of each kind that returns. -/
theorem witness_BlockingCallHoldsTheHost :
    (∃ t, step { sending 0#64 with call := some .run } = .next t) ∧
    (∃ t, step { polling 0#64 0#64 [.idle] with call := some .run } = .next t ∧ t.call = none) ∧
    (∃ t, step { polling 0#64 0#64 [.idle] with call := some .xpkt } = .next t ∧ t.call = none) :=
  ⟨⟨_, rfl⟩, ⟨_, rfl, rfl⟩, ⟨_, rfl, rfl⟩⟩

/-- For every statement whose hypothesis is a legal frame operand: one of each origin. -/
theorem witness_legal_frame_operands :
    legalFrameOperand 0x02C1506102#40 = true ∧ legalFrameOperand 0x060186031B#40 = true ∧
    legalFrameOperand 0x1500000000#40 = true := by decide

theorem witness_ChecksumLaws :
    [0x01#8, 0x86#8, 0x03#8, 0x1B#8].Perm [0x1B#8, 0x03#8, 0x86#8, 0x01#8] := by decide

theorem witness_ChecksumDetectsOneChangedByte :
    (0x06#8 ≠ 0x02#8) ∧ (0xC0#8 ≠ request.payload.d0) ∧ (0x51#8 ≠ request.payload.d1) ∧ (0x60#8 ≠ request.payload.d2) ∧
    (0x03#8 ≠ request.payload.d3) := by decide

/-- With no further `ENC.NEXT`, and with two. -/
theorem witness_EncoderEmitsTheWireForm :
    ∀ m ∈ [0, 2], (invoked (invoking (.encLoad (packFrame response)) ::
      (List.replicate ((wireForm response).length + m) (invoking .encNext) ++ []))).call = none := by decide

theorem witness_WireFormIsPrefixFree : wireForm response <+: wireForm response := List.prefix_refl _

theorem witness_DecPushFollowsItsTable :
    ¬ transient (decoding .dataHigh true request).dec ∧ transient (decoding .successful false request).dec ∧
    transient (decoding .error false request).dec := by decide

theorem witness_WireByteRowsPushTheirByte :
    (∀ x ∈ [(Instr.esc, 0x1B#8), (.etx, 0x03#8), (.stx, 0x02#8), (.ack, 0x06#8), (.nack, 0x15#8)],
      x ∈ [(Instr.esc, 0x1B#8), (.etx, 0x03#8), (.stx, 0x02#8), (.ack, 0x06#8), (.nack, 0x15#8)]) ∧
    ¬ transient State.reset.dec := by decide

theorem witness_FrameRowsAreDecoded :
    (∀ x ∈ [(Instr.frameStx 0xC1#8 0x50#8 0x61#8 0x02#8 0x87#8, StartByte.stx),
        (.frameAck 0xC1#8 0x50#8 0x61#8 0x02#8 0x87#8, .ack), (.frameNack 0xC1#8 0x50#8 0x61#8 0x02#8 0x87#8, .nack)],
      x ∈ [(Instr.frameStx request.payload.d0 request.payload.d1 request.payload.d2 request.payload.d3 0x87#8, StartByte.stx),
        (.frameAck request.payload.d0 request.payload.d1 request.payload.d2 request.payload.d3 0x87#8, .ack),
        (.frameNack request.payload.d0 request.payload.d1 request.payload.d2 request.payload.d3 0x87#8, .nack)]) ∧
    State.reset.dec.state = .initialEsc ∧ State.reset.dec.escPend = false := by decide

theorem witness_DecoderRoundTrip :
    (invoked ((wireForm response).map (fun b => invoking (.decPush b)) ++ [])).call = none ∧
    (invoked ((wireForm response).map (fun b => invoking (.decPush b)) ++ [])).dec.state = .initialEsc ∧
    (invoked ((wireForm response).map (fun b => invoking (.decPush b)) ++ [])).dec.escPend = false := by decide

theorem witness_DecoderAcceptedLanguage :
    Decoder.reset.state = .initialEsc ∧ Decoder.reset.escPend = false ∧
    (∀ b ∈ [0x00#8, 0x02#8], b ≠ 0x1B#8) ∧
    ∃ d1, decoderPushAll ([0x00#8, 0x02#8] ++ wireForm request) Decoder.reset =
      .ok (List.replicate 10 .more ++ [.frame request], d1) := ⟨rfl, rfl, by decide, _, rfl⟩

theorem witness_DecoderAnswersWithinThirteenBytes :
    (decoding .startByte false request).dec.state = .startByte ∧ (decoding .startByte false request).dec.escPend = false ∧
    (List.replicate 13 (0x02#8 : Byte)).length = 13 := by decide

theorem witness_VerdictsResetTheDecoder :
    (∃ d1, decoderPush 0x87#8 (decoding .checksum false request).dec = .ok (.frame request, d1)) ∧
    PushOutcome.frame request ≠ .more ∧
    (∃ d1, decoderPush 0x41#8 (decoding .startByte false request).dec = .ok (.err (.invalidStartByte 0x41#8), d1)) ∧
    PushOutcome.err (.invalidStartByte 0x41#8) ≠ .more := ⟨⟨_, rfl⟩, by decide, ⟨_, rfl⟩, by decide⟩

/-- Each of the five errors, both causes of `BufferOverFlow` and of `ChecksumIsEscButNotDuplicated`. -/
theorem witness_SegmentErrorsCarryTheirValues :
    (∃ d1, decoderPush 0x1B#8 (decoding .startByte false request).dec = .ok (.err (.invalidStartByte 0x1B#8), d1)) ∧
    (∃ d1, decoderPush 0x07#8 (decoding .finalEsc false request).dec = .ok (.err .bufferOverFlow, d1)) ∧
    (∃ d1, decoderPush 0x1B#8 (decoding .etxByte false request).dec = .ok (.err .bufferOverFlow, d1)) ∧
    (∃ d1, decoderPush 0x04#8 (decoding .etxByte false request).dec =
      .ok (.err (.expectedEtxOrEscDupButFoundOtherThing 0x04#8), d1)) ∧
    (∃ d1, decoderPush 0x03#8 (decoding .dataHigh true request).dec = .ok (.err .checksumIsEscButNotDuplicated, d1)) ∧
    (∃ d1, decoderPush 0x87#8 (decoding .checksum true request).dec = .ok (.err .checksumIsEscButNotDuplicated, d1)) ∧
    (∃ d1, decoderPush 0x88#8 (decoding .checksum false request).dec = .ok (.err (.invalidChecksum 0x87#8 0x88#8), d1)) :=
  ⟨⟨_, rfl⟩, ⟨_, rfl⟩, ⟨_, rfl⟩, ⟨_, rfl⟩, ⟨_, rfl⟩, ⟨_, rfl⟩, ⟨_, rfl⟩⟩

/-- For `TXN.START`, `TXN.RUN` and `TL.XPKT`: an exchange in progress in either phase; none, with the timeout not admitted; none,
with the least and the greatest admitted timeout. -/
theorem witness_starting_an_exchange :
    exchanging (sending 0#64).txn ∧ exchanging (polling 0#64 0#64 []).txn ∧ ¬ exchanging State.reset.txn ∧
    (0xFFFFFFFFFFFFFFFF#64 = 0xFFFFFFFFFFFFFFFF#64) ∧ (0#64 ≠ 0xFFFFFFFFFFFFFFFF#64) ∧
    (0xFFFFFFFFFFFFFFFE#64 ≠ 0xFFFFFFFFFFFFFFFF#64) ∧ (0x3F#8).toNat < 64 := by decide

/-- With a byte to transmit, and with none left. -/
theorem witness_TxnStepInSendTransmits :
    (sending 0#64).txn.phase = .send ∧ (encoderNext (sending 0#64).txn.enc).1 = some 0x1B#8 ∧
    (encoderNext { (sending 0#64).txn.enc with state := .finished }).1 = none := by decide

theorem witness_TxnStepTakesAReadyByte :
    (polling 0#64 0#64 [.byte 0x1B#8]).txn.phase = .poll ∧ ¬ transient (polling 0#64 0#64 [.byte 0x1B#8]).txn.dec ∧
    (polling 0#64 0#64 [.byte 0x1B#8]).env.answers = .byte 0x1B#8 :: [] := by decide

/-- Below the timeout, at it, and at the greatest counter value the statement admits. -/
theorem witness_TxnStepCountsAnIdlePoll :
    ∀ e ∈ [1#64, 2#64, 0xFFFFFFFFFFFFFFFE#64], (polling 2#64 e [.idle]).txn.phase = .poll ∧
      (polling 2#64 e [.idle]).txn.elapsed ≠ 0xFFFFFFFFFFFFFFFF#64 ∧ (polling 2#64 e [.idle]).env.answers = .idle :: [] := by
  have h : ∀ e ∈ [1#64, 2#64, 0xFFFFFFFFFFFFFFFE#64], e ≠ 0xFFFFFFFFFFFFFFFF#64 := by simp
  exact fun e he => ⟨rfl, h e he, rfl⟩

theorem witness_FreePollsBehaveAsFixedOnes :
    (polling 0#64 0#64 []).txn.phase = .poll ∧ (polling 0#64 0#64 []).env.answers = [] := by decide

theorem witness_TxnStepRefusedOutsideAnExchange :
    State.reset.txn.phase = .idle ∧ { State.reset.txn with phase := .done }.phase = Phase.done := by decide

theorem witness_SendPhaseTransmitsTheWireForm :
    { sending 7#64 with call := some .run }.call = some Call.run ∧
    { sending 7#64 with call := some Call.run }.txn = startedTransact request 7#64 Transact.reset := by decide

/-- The least timeout and another. -/
theorem witness_SilentLineTimesOut :
    ∀ t ∈ [0#64, 2#64],
      let s : State := { invoked (invoking (.txnRun (packFrame request) t) :: []) with
        env := { Environment.reset with answers := List.replicate (t.toNat + 1) .idle ++ [] } }
      s.call = none ∧ ¬ exchanging s.txn ∧ t ≠ 0xFFFFFFFFFFFFFFFF#64 ∧
      s.host = invoking (.txnRun (packFrame request) t) :: [] ∧
      s.env.answers = List.replicate (t.toNat + 1) .idle ++ [] := by
  have idle : ¬ exchanging State.reset.txn := by decide
  have admitted : ∀ t ∈ [0#64, 2#64], t ≠ 0xFFFFFFFFFFFFFFFF#64 := by simp
  exact fun t ht => ⟨rfl, idle, admitted t ht, rfl, rfl⟩

/-- A response after one byte of noise and one idle poll, with the timeout just long enough, and a byte left over. -/
theorem witness_ResponseEndsTheExchange :
    let script : List PollAnswer := .byte 0x00#8 :: .idle :: (wireForm response).map .byte
    let s : State := { invoked (invoking (.txnRun (packFrame request) 1#64) :: []) with
      env := { Environment.reset with answers := script ++ [.byte 0xAA#8] } }
    s.call = none ∧ ¬ exchanging s.txn ∧ (1#64 ≠ 0xFFFFFFFFFFFFFFFF#64) ∧
    s.host = invoking (.txnRun (packFrame request) 1#64) :: [] ∧ s.env.answers = script ++ [.byte 0xAA#8] ∧
    script.getLast? = some (.byte 0x52#8) ∧ (∀ b ∈ [0x00#8], b ≠ 0x1B#8) ∧
    bytesOf script = [0x00#8] ++ wireForm response ∧ idleCount script ≤ (1#64).toNat := by decide

/-- A start byte that is none, on the greatest channel. -/
theorem witness_DecodeErrorEndsTheExchange :
    let script : List PollAnswer := [.byte 0x1B#8, .idle, .byte 0x41#8]
    let s : State := { invoked (invoking (.tlXpkt 0x3F#8 0#2 0#8 0#16 1#64) :: []) with
      env := { Environment.reset with answers := script ++ [] } }
    s.call = none ∧ ¬ exchanging s.txn ∧ (1#64 ≠ 0xFFFFFFFFFFFFFFFF#64) ∧ (0x3F#8).toNat < 64 ∧
    s.host = invoking (.tlXpkt 0x3F#8 0#2 0#8 0#16 1#64) :: [] ∧ s.env.answers = script ++ [] ∧
    script.getLast? = some (.byte 0x41#8) ∧ Decoder.reset.state = .initialEsc ∧ Decoder.reset.escPend = false ∧
    (decoderPushAll (bytesOf script) Decoder.reset).toOption =
      some (List.replicate 1 .more ++ [.err (.invalidStartByte 0x41#8)], Decoder.reset) ∧
    idleCount script ≤ (1#64).toNat := by decide

theorem witness_BabblingLineKeepsPolling :
    let s : State := { polling 0#64 0#64 ([0x00#8, 0x02#8].map .byte ++ []) with call := some .run }
    s.call = some .run ∧ s.txn.phase = .poll ∧ s.txn.dec.state = .initialEsc ∧ s.txn.dec.escPend = false ∧
    (∀ b ∈ [0x00#8, 0x02#8], b ≠ 0x1B#8) ∧ s.env.answers = [0x00#8, 0x02#8].map .byte ++ [] := by decide

/-- The four kinds of step: no call, a transmit, a ready poll, an idle poll. -/
theorem witness_EnvironmentCallOrder :
    (∃ t, step State.reset = .next t) ∧ (∃ t, step { sending 0#64 with call := some .run } = .next t) ∧
    (∃ t, step { polling 9#64 0#64 [.byte 0#8] with call := some .run } = .next t) ∧
    (∃ t, step { polling 9#64 0#64 [.idle] with call := some .run } = .next t) :=
  ⟨⟨_, rfl⟩, ⟨_, rfl⟩, ⟨_, rfl⟩, ⟨_, rfl⟩⟩

/-- The three kinds of phase change of an operation. -/
theorem witness_PhaseChanges :
    (∃ t, exec .txnStep { sending 0#64 with txn := { (sending 0#64).txn with enc := Encoder.reset } } = .next t ∧
      t.txn.phase ≠ .send) ∧
    (∃ t, exec .txnStep (polling 0#64 0#64 [.idle]) = .next t ∧ t.txn.phase ≠ .poll) ∧
    (∃ t, exec (.tlXpkt 0x01#8 3#2 0x50#8 0x0261#16 0#64) State.reset = .next t ∧ t.txn.phase ≠ .idle) :=
  ⟨⟨_, rfl, by decide⟩, ⟨_, rfl, by decide⟩, ⟨_, rfl, by decide⟩⟩

/-- Their steps: in a blocking call, by an invocation, and the reset event in the middle of an exchange. -/
theorem witness_PhaseChanges_of_steps :
    (∃ t, step { sending 0#64 with txn := { (sending 0#64).txn with enc := Encoder.reset }, call := some .run } = .next t ∧
      t.txn.phase ≠ .send) ∧
    (∃ t, step { polling 0#64 0#64 [.idle] with host := [invoking .txnStep] } = .next t ∧ t.txn.phase ≠ .poll) ∧
    (∃ t, step (invoked [invoking (.txnStart (packFrame request) 0#64)]) = .next t ∧ t.txn.phase ≠ .idle) ∧
    (∃ t, step { sending 0#64 with host := [.reset] } = .next t ∧ t.txn.phase ≠ .send) :=
  ⟨⟨_, rfl, by decide⟩, ⟨_, rfl, by decide⟩, ⟨_, rfl, by decide⟩, ⟨_, rfl, by decide⟩⟩

/-- Outcomes that are no error, of each operation that can also end in one. -/
theorem witness_ErrorCodesOfOutcomes :
    ∀ r ∈ [Res.push .more, .pushes [.err .bufferOverFlow, .more], .exchange (.ok ⟨response, 0#64⟩),
      .transport (.ok ⟨response, 0#64⟩), .startByte (.ok .stx), .masterStartByte (.ok .stx), .slaveStartByte (.ok .ack),
      .slaveFrame (.ok ⟨.ack, response.payload⟩), .channel (.ok 0#6)], isError r = false := by decide

/-- Each start byte, and for the refinements a byte that is none. -/
theorem witness_FrToslaveChecksOrigin :
    (0x02C1506102#40).extractLsb' 32 8 = 0x02#8 ∧ (0x060186031B#40).extractLsb' 32 8 = 0x06#8 ∧
    (0x1500000000#40).extractLsb' 32 8 = 0x15#8 := by decide

theorem witness_StartByteRefinements : (0x00#8 : Byte) ≠ 0x02#8 ∧ (0x00#8 : Byte) ≠ 0x06#8 ∧ (0x00#8 : Byte) ≠ 0x15#8 := by
  decide

theorem witness_IllTypedStartByteRefused :
    legalFrameOperand 0x0000000000#40 = false ∧ legalStartByte 0x16#8 = false := by decide

/-- The two sides of the channel bound, for `CH.ISZERO`, `TL.MKFRAME` and `TL.XPKT`. -/
theorem witness_channel_bound :
    (0x00#8).toNat < 64 ∧ (0x3F#8).toNat < 64 ∧ 64 ≤ (0x40#8).toNat ∧ 64 ≤ (0xFF#8).toNat := by decide

/-- From reset, and from the middle of a blocking call. -/
theorem witness_EveryStepKeepsTheInvariant :
    (Inv State.reset ∧ ∃ t, step State.reset = .next t) ∧
    (Inv { polling 2#64 2#64 [.idle] with call := some .run } ∧
      ∃ t, step { polling 2#64 2#64 [.idle] with call := some .run } = .next t) :=
  ⟨⟨by decide, _, rfl⟩, ⟨by decide, _, rfl⟩⟩

/-- Two states that differ in dead registers of every unit. -/
theorem witness_DeadRegistersAreNeverRead :
    let a : State := State.reset
    let b : State := { State.reset with
      enc := ⟨.finished, false, .nack, request.payload⟩
      dec := ⟨.initialEsc, false, .ack, response.payload⟩
      txn := { Transact.reset with timeout := 5#64, elapsed := 9#64 } }
    a ≠ b ∧ SameLive a b := by
  refine ⟨by decide, ⟨rfl, rfl, fun h => absurd rfl h⟩, ⟨rfl, rfl, ?_, ?_, ?_, ?_, ?_⟩, ⟨rfl, rfl, ?_⟩, rfl, rfl, rfl, rfl⟩
  · intro h; exact absurd h (by decide)
  · intro h; exact absurd h (by decide)
  · intro h; exact absurd h (by decide)
  · intro h; exact absurd h (by decide)
  · intro h; exact absurd h (by decide)
  · intro h; exact absurd h (by decide)

/-- An instruction for each clause: one of each unit, and one of none. -/
theorem witness_UnitsAreIsolated :
    (∃ t, exec .encNext State.reset = .next t) ∧ (∃ t, exec .decInit State.reset = .next t) ∧
    (∃ t, exec (.txnStart 0x02C1506102#40 0#64) State.reset = .next t) ∧ (∃ t, exec (.plSplit0 0#8) State.reset = .next t) ∧
    drivesEncoder (.plSplit0 0#8) = false ∧ drivesDecoder (.plSplit0 0#8) = false ∧
    drivesTransact (.plSplit0 0#8) = false := ⟨⟨_, rfl⟩, ⟨_, rfl⟩, ⟨_, rfl⟩, ⟨_, rfl⟩, rfl, rfl, rfl⟩

/-- An instruction with no phase condition, one for each phase condition, and a frame row with a wrong checksum byte. -/
theorem witness_WellFormedOperationsComplete :
    (Inv State.reset ∧ wellFormed .encNext = true ∧ phaseAdmits State.reset .encNext) ∧
    (wellFormed (.txnRun 0x02C1506102#40 0#64) = true ∧ phaseAdmits State.reset (.txnRun 0x02C1506102#40 0#64)) ∧
    (Inv (polling 2#64 0#64 []) ∧ phaseAdmits (polling 2#64 0#64 []) .txnStep) ∧
    phaseAdmits State.reset (.tlXpkt 0x3F#8 0#2 0#8 0#16 0#64) ∧
    (wellFormed (.frameStx 0#8 0#8 0#8 0#8 0#8) = false ∧ drivesDecoder (.frameStx 0#8 0#8 0#8 0#8 0#8) = true ∧
      phaseAdmits State.reset (.frameStx 0#8 0#8 0#8 0#8 0#8)) := by
  refine ⟨⟨by decide, by decide, trivial⟩, ⟨by decide, ?_⟩, ⟨by decide, ?_⟩, ?_, by decide, by decide, trivial⟩
  · show ¬ exchanging State.reset.txn; decide
  · show exchanging (polling 2#64 0#64 []).txn; decide
  · intro _; show ¬ exchanging State.reset.txn; decide

end Sys2Proof.Tests
end

