-- ==== Sys2Proof/Proofs/Scope.lean ====
section
/-! PROOFS. The step on a pending invocation (`00_scope.md` R12, `10_state.md` R20). -/

namespace Sys2Proof.Proofs

open Sys2Proof Sys2Proof.Machine

/-- With no blocking call before it, an invocation that decodes is run on the state with the input taken. -/
theorem step_of_invoke_ok {s : State} {r : Request} {i : Instr} {rest : List HostInput} (hcall : s.call = none)
    (hhost : s.host = .invoke r :: rest) (hdec : decode r = .ok i) : step s = exec i (s.withHost rest) := by
  simp only [step, hcall, hhost, hdec]

theorem decodeTableWord_eq_some {nbits w : Nat} {i : Instr} :
    decodeTableWord nbits w = some i ↔ decode (tableRequest nbits w) = .ok i := by
  unfold decodeTableWord
  cases decode (tableRequest nbits w) <;> simp [Except.toOption]

/-! ### A table word placed as the next invocation -/

@[simp] theorem withFetchWord_call (s : State) (nbits w : Nat) : (s.withFetchWord nbits w).call = none := rfl

@[simp] theorem withFetchWord_host (s : State) (nbits w : Nat) :
    (s.withFetchWord nbits w).host = .invoke (tableRequest nbits w) :: s.host := rfl

/-- Taking the placed word leaves the state it was placed on, without its call. -/
@[simp] theorem withFetchWord_withHost (s : State) (nbits w : Nat) :
    (s.withFetchWord nbits w).withHost s.host = s.withCall none := rfl

theorem step_withFetchWord {nbits w : Nat} {i : Instr} (s : State) (hdec : decodeTableWord nbits w = some i) :
    step (s.withFetchWord nbits w) = exec i (s.withCall none) := by
  rw [step_of_invoke_ok (withFetchWord_call s nbits w) (withFetchWord_host s nbits w) (decodeTableWord_eq_some.mp hdec),
    withFetchWord_withHost]

/-- Settles O6: each clause is the step on a pending invocation that decodes, the host's own or the placed table word. -/
theorem stepRunsTheDecodedInstruction : Obligations.StepRunsTheDecodedInstruction :=
  ⟨fun _ _ _ _ hcall hhost hdec => step_of_invoke_ok hcall hhost hdec, fun s _ _ _ hdec => step_withFetchWord s hdec⟩

end Sys2Proof.Proofs
end

/-! PROOFS. The reset values, the isolation of the units, the invariant of the register values and the registers no step
reads (`10_state.md` R21, R46, R48, R49). -/

namespace Sys2Proof.Proofs

open Sys2Proof Sys2Proof.Machine Sys2Proof.Safety Sys2Proof.Laws

/-! ### The forms of an instruction's meaning

Thirty-two rows have ten meanings among them. What every instruction does, or leaves unchanged, is proved over these ten. -/

/-- The meanings `exec` gives, as functions of the state, with the unit the instruction is said to drive (R21). -/
inductive ExecForm (i : Instr) : (State → StepOutcome) → Prop where
  /-- An ill-typed operand (U2, U6). -/
  | refuse (e : Refusal) : ExecForm i fun _ => .refused e
  /-- An outcome that no register decides. -/
  | answer (r : Res) : ExecForm i (endWith r)
  /-- `ENC.LOAD`. -/
  | encLoad (f : Frame) (hi : drivesEncoder i = true) : ExecForm i fun s => endWith .nothing (s.withEnc (encoderLoad f))
  /-- `ENC.NEXT`. -/
  | encNext (hi : drivesEncoder i = true) : ExecForm i execEncNext
  /-- `DEC.INIT`. -/
  | decInit (hi : drivesDecoder i = true) : ExecForm i execDecInit
  /-- `DEC.PUSH` and the one-byte wire rows. -/
  | push (b : Byte) (hi : drivesDecoder i = true) : ExecForm i (pushStandalone b)
  /-- The FRAME rows. -/
  | receive (start : Byte) (p : Payload) (chk : Byte) (hi : drivesDecoder i = true) : ExecForm i (receiveFrame start p chk)
  /-- `TXN.START`. -/
  | start (f : Frame) (t : Micros) (hi : drivesTransact i = true) :
    ExecForm i fun s => thenDo (fun s1 => s1.withRes (some .nothing)) (transactStart f t s)
  /-- `TXN.STEP`. -/
  | advance (hi : drivesTransact i = true) : ExecForm i execTxnStep
  /-- `TXN.RUN` and `TL.XPKT`. -/
  | begin (c : Call) (f : Frame) (t : Micros) (hi : drivesTransact i = true) : ExecForm i (beginCall c f t)

namespace ExecForm

variable {i : Instr}

theorem frameOperand (w : BitVec 40) {k : Frame → State → StepOutcome} (hk : ∀ f, ExecForm i (k f)) :
    ExecForm i fun s => withFrameOperand w fun f => k f s := by
  unfold withFrameOperand
  cases unpackFrame w with
  | none => exact .refuse _
  | some f => exact hk f

theorem startOperand (b : Byte) {k : StartByte → State → StepOutcome} (hk : ∀ st, ExecForm i (k st)) :
    ExecForm i fun s => withStartOperand b fun st => k st s := by
  unfold withStartOperand
  cases startOf b with
  | none => exact .refuse _
  | some st => exact hk st

theorem channelOperand (b : Byte) {k : Channel → State → StepOutcome} (hk : ∀ c, ExecForm i (k c)) :
    ExecForm i fun s => withChannelOperand b fun c => k c s := by
  unfold withChannelOperand
  cases channelOf b with
  | none => exact .refuse _
  | some c => exact hk c

end ExecForm

/-- The form of every row of the table. -/
theorem exec_form (i : Instr) : ExecForm i (exec i) := by
  cases i with
  | esc | etx | stx | ack | nack => exact .push _ rfl
  | frameStx | frameAck | frameNack => exact .receive _ _ _ rfl
  | getword | resetbitmask | setbitmask | setword => exact .answer _
  | chkCalc w => exact .frameOperand w fun f => .answer (.byte (frameChecksum f))
  | encLoad w => exact .frameOperand w fun f => .encLoad f rfl
  | encNext => exact .encNext rfl
  | decInit => exact .decInit rfl
  | decPush b => exact .push b rfl
  | txnStart w t => exact .frameOperand w fun f => .start f t rfl
  | txnStep => exact .advance rfl
  | txnRun w t => exact .frameOperand w fun f => .begin .run f t rfl
  | sbFrom b =>
    change ExecForm _ (execSbFrom b)
    unfold execSbFrom
    cases startOf b with
    | none => exact .answer (.startByte (.error (.invalidStartByte b)))
    | some st => exact .answer (.startByte (.ok st))
  | sbTomaster b => exact .startOperand b fun st => .answer (.masterStartByte (toMaster st))
  | sbToslave b => exact .startOperand b fun st => .answer (.slaveStartByte (toSlave st))
  | frToslave w => exact .frameOperand w fun f => .answer (.slaveFrame (toSlaveFrame f))
  | chFrom b =>
    change ExecForm _ (execChFrom b)
    unfold execChFrom
    cases channelOf b with
    | none => exact .answer (.channel (.error .invalidChannel))
    | some c => exact .answer (.channel (.ok c))
  | chIszero b => exact .channelOperand b fun c => .answer (.isZero (c == 0#6))
  | w16Split | w16Join | w16Bit => exact .answer _
  | tlMkframe b k w a => exact .channelOperand b fun c => .answer (.frame (makeFrame c (messageOf k w a)))
  | plSplit0 b => exact .answer _
  | tlXpkt b k w a t =>
    change ExecForm _ (execTlXpkt b k w a t)
    unfold execTlXpkt
    cases channelOf b with
    | none => exact .answer (.transport (.error .invalidChannel))
    | some c => exact .begin .xpkt (makeFrame c (messageOf k w a)) t rfl

/-! ### The reset event and the reset state -/

/-- With no call before it, a pending reset event is taken. -/
theorem step_of_reset {s : State} {rest : List HostInput} (hcall : s.call = none) (hhost : s.host = .reset :: rest) :
    step s = .next (resetEvent (s.withHost rest)) :=
  step_eq_next.mpr (.inr (.inr (.inl ⟨rest, hcall, hhost, rfl⟩)))

theorem encoderOk_reset : EncoderOk Encoder.reset := by decide

theorem decoderOk_reset : DecoderOk Decoder.reset := by decide

theorem transactOk_reset : TransactOk Transact.reset := by decide

/-- Settles O7: each reset value is the field written in `State.reset`. -/
theorem resetStateValues : Obligations.ResetStateValues :=
  ⟨rfl, rfl, rfl, rfl, rfl, rfl, rfl, rfl, rfl, rfl, rfl, rfl, rfl⟩

/-- Settles O8: the step is `resetEvent`, which writes the three units and no other field. -/
theorem resetEventEffect : Obligations.ResetEventEffect := fun _ _ hcall hhost =>
  ⟨_, step_of_reset hcall hhost, rfl, rfl, rfl, rfl, rfl, rfl, rfl, rfl, rfl, rfl, rfl, rfl, hcall, rfl, rfl⟩

/-- Settles O56: each unit is well formed at reset, no call is in progress, and the logs are empty. -/
theorem resetMeetsTheInvariant : Obligations.ResetMeetsTheInvariant :=
  ⟨encoderOk_reset, decoderOk_reset, transactOk_reset, fun h => absurd rfl h, by decide⟩

/-! ### What an exchange's step leaves unchanged -/

/-- A `TXN.STEP` writes the transact unit and the environment alone (R21, R193). -/
theorem transactStep_frame {s t : State} (h : transactStep s = .next t) :
    t.enc = s.enc ∧ t.dec = s.dec ∧ t.call = s.call ∧ t.host = s.host ∧ t.res = s.res := by
  rcases transactStep_eq_next.mp h with ⟨_, h⟩ | ⟨_, h⟩
  · rcases stepSend_eq_next.mp h with ⟨b, _, rfl⟩ | ⟨_, rfl⟩ <;> simp
  · rcases stepPoll_eq_next.mp h with ⟨b, o, d, _, _, rfl⟩ | ⟨_, rfl⟩ <;> simp

theorem execTxnStep_eq_next {s t : State} :
    execTxnStep s = .next t ↔ ∃ u, transactStep s = .next u ∧ t = u.withRes (some .nothing) := thenDo_eq_next

/-- Settles O59, by the form of the instruction's meaning: each form writes the unit it is marked to drive. -/
theorem unitsAreIsolated : Obligations.UnitsAreIsolated := by
  intro i s t h
  have hform := exec_form i
  generalize exec i = g at h hform
  cases hform with
  | refuse e => cases h
  | answer r => cases endWith_eq_next.mp h; simp
  | encLoad f hi => cases endWith_eq_next.mp h; simp [hi]
  | encNext hi => cases endWith_eq_next.mp h; simp [hi]
  | decInit hi => cases endWith_eq_next.mp h; simp [hi]
  | push b hi => obtain ⟨o, d, _, rfl⟩ := pushStandalone_eq_next.mp h; simp [hi]
  | receive st p k hi => obtain ⟨os, d, _, rfl⟩ := receiveFrame_eq_next.mp h; simp [hi]
  | start f m hi =>
    obtain ⟨u, hu, rfl⟩ := thenDo_eq_next.mp h
    obtain ⟨_, _, rfl⟩ := transactStart_eq_next.mp hu
    simp [hi]
  | advance hi =>
    obtain ⟨u, hu, rfl⟩ := execTxnStep_eq_next.mp h
    obtain ⟨henc, hdec, _, hhost, _⟩ := transactStep_frame hu
    simp [hi, henc, hdec, hhost]
  | begin c f m hi =>
    obtain ⟨_, _, rfl⟩ := beginCall_eq_next.mp h
    simp [hi]

/-! ### The encoder's part of the invariant -/

theorem encoderOk_of_dup_false {e : Encoder} (h : e.dup = false) : EncoderOk e := fun hd => by simp [h] at hd

theorem dup_eq_false_of_encoderOk {e : Encoder} (h : EncoderOk e) (hv : stuffableByte e = none) : e.dup = false := by
  cases hd : e.dup with
  | false => rfl
  | true => rw [h hd] at hv; cases hv

/-- A state that emits a stuffable byte emits it stuffed (R145, R148). -/
theorem encoderNext_of_stuffable {e : Encoder} {v : Byte} (hv : stuffableByte e = some v) :
    ∃ n, encoderNext e = emitStuffed v n e := by
  unfold stuffableByte at hv
  unfold encoderNext
  cases hst : e.state <;> rw [hst] at hv <;> cases hv <;> exact ⟨_, rfl⟩

/-- The other states do not touch `E.dup` (R143, R144, R146, R147, R149). -/
theorem encoderNext_dup {e : Encoder} (hv : stuffableByte e = none) : (encoderNext e).2.dup = e.dup := by
  cases hst : e.state <;> simp [stuffableByte, hst] at hv <;> simp [encoderNext, hst]

/-- A duplicate becomes pending in the state of its 0x1B and is no longer pending in the next state. -/
theorem emitStuffed_keeps_encoderOk {v : Byte} {e : Encoder} (n : EncState) (h : EncoderOk e)
    (hv : stuffableByte e = some v) : EncoderOk (emitStuffed v n e).2 := by
  rcases emitStuffed_cases v n e with ⟨hne, heq⟩ | ⟨rfl, _, heq⟩ | ⟨_, _, heq⟩ <;> rw [heq]
  · refine encoderOk_of_dup_false (Bool.eq_false_iff.mpr fun hd => hne ?_)
    exact Option.some.inj (hv.symm.trans (h hd))
  · exact fun _ => hv
  · exact encoderOk_of_dup_false rfl

theorem encoderNext_keeps_encoderOk {e : Encoder} (h : EncoderOk e) : EncoderOk (encoderNext e).2 := by
  cases hv : stuffableByte e with
  | none => exact encoderOk_of_dup_false ((encoderNext_dup hv).trans (dup_eq_false_of_encoderOk h hv))
  | some v =>
    obtain ⟨n, hn⟩ := encoderNext_of_stuffable hv
    rw [hn]
    exact emitStuffed_keeps_encoderOk n h hv

theorem encoderLoad_encoderOk (f : Frame) : EncoderOk (encoderLoad f) := encoderOk_of_dup_false rfl

/-- `ENC.NEXT` in `Finished` writes nothing (R149). -/
theorem encoderNext_of_finished {e : Encoder} (h : e.state = .finished) : encoderNext e = (none, e) := by
  simp [encoderNext, h]

/-! ### The decoder's part of the invariant -/

theorem decoderOk_of_escPend_false {d : Decoder} (hst : ¬ transient d) (hp : d.escPend = false) : DecoderOk d :=
  ⟨hst, fun h => by simp [hp] at h⟩

theorem decoderInit_decoderOk (d : Decoder) : DecoderOk (decoderInit d) := by simp [DecoderOk, decoderInit]

theorem escPend_eq_false_of_decoderOk {d : Decoder} (h : DecoderOk d) (hst : destuffing d.state = false) :
    d.escPend = false := by
  obtain ⟨_, hpend⟩ := h
  cases hp : d.escPend with
  | false => rfl
  | true => rw [hpend hp] at hst; cases hst

/-- An escape becomes pending in a payload-byte state and is no longer pending when that state is left (R164). -/
theorem pushData_keeps_decoderOk {put : Byte → Decoder} {n : DecState} {d : Decoder} (b : Byte)
    (hd : destuffing d.state = true) (hn : n ≠ .successful ∧ n ≠ .error) (hput : ∀ v, (put v).escPend = d.escPend) :
    DecoderOk (pushData put n b d).2 := by
  have hst : ¬ transient d := by rintro (h | h) <;> simp [h, destuffing] at hd
  rcases pushData_cases put n b d with ⟨_, _, h⟩ | ⟨hp, _, h⟩ | ⟨_, _, h⟩ | ⟨_, _, h⟩ <;> rw [h]
  · exact ⟨hst, fun _ => hd⟩
  · exact decoderOk_of_escPend_false (not_or.mpr hn) ((hput b).trans hp)
  · exact decoderOk_of_escPend_false (not_or.mpr hn) rfl
  · exact decoderInit_decoderOk d

theorem compareChecksum_decoder (r : Byte) (d : Decoder) : (compareChecksum r d).2 = decoderInit d := by
  rcases compareChecksum_cases r d with ⟨_, h⟩ | ⟨_, h⟩ <;> rw [h]

theorem decoderPush_keeps_decoderOk {b : Byte} {d d1 : Decoder} {o : PushOutcome} (h : DecoderOk d)
    (hpush : decoderPush b d = .ok (o, d1)) : DecoderOk d1 := by
  obtain ⟨p, hp, rfl⟩ : ∃ p, decoderPush b d = .ok p ∧ p.2 = d1 := ⟨_, hpush, rfl⟩
  clear hpush
  have hclear := escPend_eq_false_of_decoderOk h
  unfold decoderPush at hp
  cases hst : d.state <;> rw [hst] at hp hclear <;> cases hp
  case initialEsc =>
    split_ifs
    · exact decoderOk_of_escPend_false (by simp) (hclear rfl)
    · exact h
  case startByte =>
    rcases pushStartByte_cases b d with ⟨st, _, hb⟩ | ⟨_, hb⟩ <;> rw [hb]
    · exact decoderOk_of_escPend_false (by simp) (hclear rfl)
    · exact decoderInit_decoderOk d
  case directionAndChannel | command | dataLow | dataHigh =>
    exact pushData_keeps_decoderOk b (by rw [hst]; rfl) (by simp) fun _ => rfl
  case finalEsc =>
    split_ifs
    · exact decoderOk_of_escPend_false (by simp) (hclear rfl)
    · exact decoderInit_decoderOk d
  case etxByte =>
    rcases pushEtxByte_cases b d with ⟨_, hb⟩ | ⟨_, hb⟩ | ⟨_, _, hb⟩ <;> rw [hb]
    · exact decoderOk_of_escPend_false (by simp) (hclear rfl)
    · exact decoderInit_decoderOk d
    · exact decoderInit_decoderOk d
  case checksum =>
    rcases pushChecksum_cases b d with ⟨_, _, hb⟩ | ⟨_, hb⟩ | ⟨_, _, hb⟩ <;> rw [hb]
    · exact ⟨h.1, fun _ => by simp [hst, destuffing]⟩
    · rw [compareChecksum_decoder]; exact decoderInit_decoderOk d
    · exact decoderInit_decoderOk d

theorem decoderPushAll_keeps_decoderOk {bs : List Byte} {d d1 : Decoder} {os : List PushOutcome} (h : DecoderOk d)
    (hpush : decoderPushAll bs d = .ok (os, d1)) : DecoderOk d1 := by
  induction bs generalizing d os with
  | nil => cases hpush; exact h
  | cons b bs ih =>
    obtain ⟨o, d2, os2, hb, hbs, _⟩ := decoderPushAll_cons_ok.mp hpush
    exact ih (decoderPush_keeps_decoderOk h hb) hbs

/-! ### The logs' part of the invariant -/

@[simp] theorem transmitted_append (xs ys : List EnvCall) : transmitted (xs ++ ys) = transmitted xs ++ transmitted ys :=
  List.filterMap_append

@[simp] theorem delayArguments_append (xs ys : List EnvCall) :
    delayArguments (xs ++ ys) = delayArguments xs ++ delayArguments ys :=
  List.filterMap_append

/-- The logs stay what the calls add up to when the calls `cs` are made and each log grows by what they add to it (R45). -/
theorem logsOk_of_calls {v w : Environment} (cs : List EnvCall) (h : LogsOk v) (htrace : w.trace = v.trace ++ cs)
    (htxlog : w.txlog = v.txlog ++ transmitted cs) (hdelays : w.delays = v.delays + (delayArguments cs).length)
    (hone : ∀ n ∈ delayArguments cs, n = 1) (hcreate : EnvCall.create ∉ cs) : LogsOk w := by
  obtain ⟨vtx, vcount, vone, vcreate⟩ := h
  unfold LogsOk
  rw [htrace, htxlog, hdelays, transmitted_append, delayArguments_append, List.length_append, vtx, vcount]
  refine ⟨rfl, rfl, fun n hn => ?_, fun hc => ?_⟩
  · exact (List.mem_append.mp hn).elim (vone n) (hone n)
  · exact (List.mem_append.mp hc).elim vcreate hcreate

theorem connTransmit_keeps_logsOk {v : Environment} (b : Byte) (h : LogsOk v) : LogsOk (connTransmit b v) :=
  logsOk_of_calls [.transmit b] h rfl rfl rfl (by simp [delayArguments]) (by simp)

theorem delayUs_keeps_logsOk {v : Environment} (h : LogsOk v) : LogsOk (delayUs Config.pollDelayUs v) :=
  logsOk_of_calls [.delay Config.pollDelayUs] h rfl (by simp [delayUs, transmitted]) rfl (by simp [delayArguments])
    (by simp)

/-- A poll's calls are neither transmissions nor delays, and make no connection (R63, R64). -/
theorem pollCalls_add_nothing (a : PollAnswer) :
    transmitted (pollCalls a) = [] ∧ delayArguments (pollCalls a) = [] ∧ EnvCall.create ∉ pollCalls a := by
  cases a <;> simp [pollCalls, transmitted, delayArguments]

theorem connPoll_keeps_logsOk {v : Environment} (h : LogsOk v) : LogsOk (connPoll v).2 := by
  obtain ⟨htrace, htxlog, hdelays⟩ := connPoll_logs v
  obtain ⟨htx, hdelay, hcreate⟩ := pollCalls_add_nothing (connPoll v).1
  exact logsOk_of_calls _ h htrace (by simp [htxlog, htx]) (by simp [hdelays, hdelay]) (by simp [hdelay]) hcreate

/-! ### The transact unit's part of the invariant -/

theorem startedTransact_transactOk (f : Frame) {t : Micros} (x : Transact) (ht : t ≠ Config.timeoutNotAdmitted) :
    TransactOk (startedTransact f t x) :=
  ⟨by simp [startedTransact], fun _ => BitVec.le_def.mpr (Nat.zero_le _), ht, by simp [startedTransact], rfl,
    encoderLoad_encoderOk f, decoderInit_decoderOk x.dec⟩

theorem startedTransact_exchanging (f : Frame) (t : Micros) (x : Transact) : exchanging (startedTransact f t x) := .inl rfl

/-- R195: the private encoder goes on, and is finished when the phase becomes `Poll` (R204). -/
theorem stepSend_keeps_transactOk {s t : State} (h : TransactOk s.txn) (hphase : s.txn.phase = .send)
    (hstep : stepSend s = .next t) : TransactOk t.txn := by
  obtain ⟨hdone, hcount, hadm, _, hres, henc, hdec⟩ := h
  have henc' := encoderNext_keeps_encoderOk henc
  rcases stepSend_eq_next.mp hstep with ⟨b, _, rfl⟩ | ⟨hnone, rfl⟩
  · exact ⟨hdone, hcount, hadm, by simp [hphase], hres, henc', hdec⟩
  · have hfin := encoderNext_none.mp hnone
    refine ⟨by simpa [hphase] using hdone, fun _ => hcount (.inl hphase), hadm, fun _ => ?_, hres, henc', hdec⟩
    simpa [encoderNext_of_finished hfin] using hfin

/-- R196: a frame or an error ends the exchange with the counter as it stands. -/
theorem afterVerdict_transactOk {x : Transact} {d : Decoder} (o : PushOutcome) (h : TransactOk x) (hphase : x.phase = .poll)
    (hd : DecoderOk d) : TransactOk (afterVerdict o d x) := by
  obtain ⟨hdone, hcount, hadm, hfin, hres, henc, _⟩ := h
  have hle := hcount (.inr hphase)
  have hfin' := hfin (.inl hphase)
  cases o with
  | more => exact ⟨hdone, hcount, hadm, hfin, hres, henc, hd⟩
  | frame g => exact ⟨by simp [afterVerdict], fun _ => hle, hadm, fun _ => hfin', decide_eq_true ⟨rfl, hle⟩, henc, hd⟩
  | err e => exact ⟨by simp [afterVerdict], fun _ => hle, hadm, fun _ => hfin', decide_eq_true hle, henc, hd⟩

/-- The counter goes up by one, so the count that first exceeds the timeout is the timeout plus one (R200 (c)). -/
theorem eq_of_le_of_lt_succ {e t : Micros} (hle : e ≤ t) (hlt : t < e + 1#64) : e = t := by bv_omega

/-- R197: the counter is tested after it is counted, so it stays at most the timeout while the exchange goes on. -/
theorem afterIdlePoll_transactOk {x : Transact} (h : TransactOk x) (hphase : x.phase = .poll) :
    TransactOk (afterIdlePoll x) := by
  obtain ⟨hdone, hcount, hadm, hfin, hres, henc, hdec⟩ := h
  have hle := hcount (.inr hphase)
  have hfin' := hfin (.inl hphase)
  have hnone : x.result = none := by simpa [hphase] using hdone
  unfold afterIdlePoll
  split_ifs with hlt
  · have heq := eq_of_le_of_lt_succ hle hlt
    exact ⟨by simp, by simp, hadm, fun _ => hfin', by simp [resultOk, heq], henc, hdec⟩
  · exact ⟨hdone, fun _ => BitVec.not_lt.mp hlt, hadm, hfin, by simp [hnone, resultOk], henc, hdec⟩

theorem transactStep_keeps_transactOk {s t : State} (h : TransactOk s.txn) (hstep : transactStep s = .next t) :
    TransactOk t.txn := by
  rcases transactStep_eq_next.mp hstep with ⟨hphase, hstep⟩ | ⟨hphase, hstep⟩
  · exact stepSend_keeps_transactOk h hphase hstep
  · rcases stepPoll_eq_next.mp hstep with ⟨b, o, d, _, hpush, rfl⟩ | ⟨_, rfl⟩
    · have ⟨_, _, _, _, _, _, hdec⟩ := h
      exact afterVerdict_transactOk o h hphase (decoderPush_keeps_decoderOk hdec hpush)
    · exact afterIdlePoll_transactOk h hphase

theorem transactStep_keeps_logsOk {s t : State} (h : LogsOk s.env) (hstep : transactStep s = .next t) : LogsOk t.env := by
  rcases transactStep_eq_next.mp hstep with ⟨_, hstep⟩ | ⟨_, hstep⟩
  · rcases stepSend_eq_next.mp hstep with ⟨b, _, rfl⟩ | ⟨_, rfl⟩
    · exact connTransmit_keeps_logsOk b h
    · exact h
  · rcases stepPoll_eq_next.mp hstep with ⟨b, o, d, _, _, rfl⟩ | ⟨_, rfl⟩
    · exact connPoll_keeps_logsOk h
    · exact delayUs_keeps_logsOk (connPoll_keeps_logsOk h)

/-- A `TXN.STEP` leaves the exchange in progress or ended (R193). -/
theorem transactStep_phase {s t : State} (hstep : transactStep s = .next t) : exchanging t.txn ∨ t.txn.phase = .done := by
  rcases transactStep_eq_next.mp hstep with ⟨hphase, hstep⟩ | ⟨hphase, hstep⟩
  · rcases stepSend_eq_next.mp hstep with ⟨b, _, rfl⟩ | ⟨_, rfl⟩
    · exact .inl (.inl hphase)
    · exact .inl (.inr rfl)
  · rcases stepPoll_eq_next.mp hstep with ⟨b, o, d, _, _, rfl⟩ | ⟨_, rfl⟩
    · cases o with
      | more => exact .inl (.inr hphase)
      | frame g => exact .inr rfl
      | err e => exact .inr rfl
    · simp only [State.withEnv_txn, State.withTxn_txn, afterIdlePoll]
      split_ifs
      · exact .inr rfl
      · exact .inl (.inr hphase)

/-! ### The invariant of the whole machine -/

/-- The return of a call writes the port and the call alone (R199). -/
theorem finishCall_frame (c : Call) (s : State) :
    (finishCall c s).enc = s.enc ∧ (finishCall c s).dec = s.dec ∧ (finishCall c s).env = s.env := by
  rcases finishCall_cases c s with ⟨_, _, _, h⟩ | ⟨_, h⟩ <;> simp [h]

/-- A call is still in progress after its step only if the exchange is (log entry 5). -/
theorem finishCall_call {c : Call} {s : State} (hdone : s.txn.phase = .done ↔ s.txn.result ≠ none)
    (hphase : exchanging s.txn ∨ s.txn.phase = .done) : (finishCall c s).call ≠ none → exchanging s.txn := by
  intro hcall
  rcases finishCall_cases c s with ⟨r, _, _, h⟩ | ⟨hgo, _⟩
  · simp [h] at hcall
  · have hnot : s.txn.phase ≠ .done := hgo.elim id fun hnone hd => hdone.mp hd hnone
    exact hphase.resolve_right hnot

theorem advanceCall_keeps_inv {c : Call} {s t : State} (h : Inv s) (hstep : advanceCall c s = .next t) : Inv t := by
  obtain ⟨u, hu, rfl⟩ := advanceCall_eq_next.mp hstep
  obtain ⟨henc, hdec, htxn, _, hlogs⟩ := h
  obtain ⟨uenc, udec, _⟩ := transactStep_frame hu
  obtain ⟨fenc, fdec, fenv⟩ := finishCall_frame c u
  have utxn := transactStep_keeps_transactOk htxn hu
  have ⟨hdone, _⟩ := utxn
  refine ⟨?_, ?_, ?_, ?_, ?_⟩
  · rwa [fenc, uenc]
  · rwa [fdec, udec]
  · rwa [finishCall_txn]
  · rw [finishCall_txn]; exact finishCall_call hdone (transactStep_phase hu)
  · rw [fenv]; exact transactStep_keeps_logsOk hlogs hu

theorem resetEvent_keeps_inv {s : State} (h : Inv s) (hcall : s.call = none) : Inv (resetEvent s) := by
  obtain ⟨_, _, _, _, hlogs⟩ := h
  exact ⟨encoderOk_reset, decoderOk_reset, transactOk_reset, fun hc => absurd hcall hc, hlogs⟩

/-- Every instruction keeps the invariant; it is taken when no call is in progress. -/
theorem exec_keeps_inv {i : Instr} {s t : State} (h : Inv s) (hcall : s.call = none) (hexec : exec i s = .next t) :
    Inv t := by
  obtain ⟨henc, hdec, htxn, hx, hlogs⟩ := h
  have hform := exec_form i
  generalize exec i = g at hexec hform
  cases hform with
  | refuse e => cases hexec
  | answer r => cases endWith_eq_next.mp hexec; exact ⟨henc, hdec, htxn, hx, hlogs⟩
  | encLoad f _ =>
    cases endWith_eq_next.mp hexec
    exact ⟨encoderLoad_encoderOk f, hdec, htxn, hx, hlogs⟩
  | encNext _ =>
    cases endWith_eq_next.mp hexec
    exact ⟨encoderNext_keeps_encoderOk henc, hdec, htxn, hx, hlogs⟩
  | decInit _ =>
    cases endWith_eq_next.mp hexec
    exact ⟨henc, decoderInit_decoderOk s.dec, htxn, hx, hlogs⟩
  | push b _ =>
    obtain ⟨o, d, hpush, rfl⟩ := pushStandalone_eq_next.mp hexec
    exact ⟨henc, decoderPush_keeps_decoderOk hdec hpush, htxn, hx, hlogs⟩
  | receive st p k _ =>
    obtain ⟨os, d, hpush, rfl⟩ := receiveFrame_eq_next.mp hexec
    exact ⟨henc, decoderPushAll_keeps_decoderOk hdec hpush, htxn, hx, hlogs⟩
  | start f m _ =>
    obtain ⟨u, hu, rfl⟩ := thenDo_eq_next.mp hexec
    obtain ⟨_, hm, rfl⟩ := transactStart_eq_next.mp hu
    exact ⟨henc, hdec, startedTransact_transactOk f s.txn hm, fun _ => startedTransact_exchanging f m s.txn, hlogs⟩
  | advance _ =>
    obtain ⟨u, hu, rfl⟩ := execTxnStep_eq_next.mp hexec
    obtain ⟨uenc, udec, ucall, _⟩ := transactStep_frame hu
    have utxn := transactStep_keeps_transactOk htxn hu
    have ulogs := transactStep_keeps_logsOk hlogs hu
    refine ⟨?_, ?_, utxn, ?_, ulogs⟩
    · rwa [State.withRes_enc, uenc]
    · rwa [State.withRes_dec, udec]
    · simp [ucall, hcall]
  | begin c f m _ =>
    obtain ⟨_, hm, rfl⟩ := beginCall_eq_next.mp hexec
    exact ⟨henc, hdec, startedTransact_transactOk f s.txn hm, fun _ => startedTransact_exchanging f m s.txn, hlogs⟩

/-- Settles O57: a call goes on, nothing is pending, a reset event is taken, or an instruction runs. -/
theorem everyStepKeepsTheInvariant : Obligations.EveryStepKeepsTheInvariant := by
  intro s t h hstep
  rcases step_eq_next.mp hstep with ⟨c, _, hc⟩ | ⟨_, _, rfl⟩ | ⟨rest, hcall, _, rfl⟩ | ⟨r, rest, i, hcall, _, _, hexec⟩
  · exact advanceCall_keeps_inv h hc
  · exact h
  · exact resetEvent_keeps_inv (s := s.withHost rest) h hcall
  · exact exec_keeps_inv (s := s.withHost rest) h hcall hexec

/-! ### Encoders that agree on their live registers -/

theorem sameEncoder_refl (e : Encoder) : SameEncoder e e := ⟨rfl, rfl, fun _ => ⟨rfl, rfl⟩⟩

/-- Only a finished encoder has dead registers (R49, U7). -/
theorem eq_of_sameEncoder {a b : Encoder} (h : SameEncoder a b) (hlive : a.state ≠ .finished) : a = b := by
  obtain ⟨hst, hdup, hlatch⟩ := h
  obtain ⟨hstart, hpl⟩ := hlatch hlive
  cases a; cases b; simp_all

theorem encoderNext_same {a b : Encoder} (h : SameEncoder a b) :
    (encoderNext a).1 = (encoderNext b).1 ∧ SameEncoder (encoderNext a).2 (encoderNext b).2 := by
  by_cases hfin : a.state = .finished
  · have ⟨hst, _⟩ := h
    rw [encoderNext_of_finished hfin, encoderNext_of_finished (hst.symm.trans hfin)]
    exact ⟨rfl, h⟩
  · rw [eq_of_sameEncoder h hfin]
    exact ⟨rfl, sameEncoder_refl _⟩

/-! ### Decoders that agree on their live registers -/

theorem sameDecoder_refl (d : Decoder) : SameDecoder d d := by simp [SameDecoder]

/-- A decoder that waits for an `ESC` has received nothing yet (R161, R169). -/
theorem decoderInit_same (a b : Decoder) : SameDecoder (decoderInit a) (decoderInit b) := by
  simp [SameDecoder, decoderInit, decStateCode]

/-- From `FinalEsc` on every register has been received. -/
theorem eq_of_sameDecoder {a b : Decoder} (h : SameDecoder a b) (hall : 6 ≤ (decStateCode a.state).toNat) : a = b := by
  obtain ⟨hst, hpend, hstart, h0, h1, h2, h3⟩ := h
  obtain ⟨ast, apend, astart, a0, a1, a2, a3⟩ := a
  obtain ⟨bst, bpend, bstart, b0, b1, b2, b3⟩ := b
  obtain rfl := hst
  obtain rfl := hpend
  obtain rfl := hstart (by omega)
  obtain rfl := h0 (by omega)
  obtain rfl := h1 (by omega)
  obtain rfl := h2 (by omega)
  obtain rfl := h3 (by omega)
  rfl

/-- Two pushes give the same verdict and leave decoders that agree on their live registers. -/
def SamePush (x y : PushOutcome × Decoder) : Prop := x.1 = y.1 ∧ SameDecoder x.2 y.2

theorem samePush_err (e : SegmentError) (a b : Decoder) : SamePush (.err e, decoderInit a) (.err e, decoderInit b) :=
  ⟨rfl, decoderInit_same a b⟩

/-- R164: the byte written is the one register that becomes live. -/
theorem pushData_same {a b : Decoder} {putA putB : Byte → Decoder} {n : DecState} (v : Byte) (h : SameDecoder a b)
    (hput : ∀ v, SameDecoder { putA v with state := n } { putB v with state := n }) :
    SamePush (pushData putA n v a) (pushData putB n v b) := by
  obtain ⟨hst, hpend, hrest⟩ := h
  unfold pushData
  rw [hpend]
  split_ifs
  · exact ⟨rfl, hst, rfl, hrest⟩
  · exact ⟨rfl, hput v⟩
  · obtain ⟨_, _, hreg⟩ := hput Config.esc
    exact ⟨rfl, rfl, rfl, hreg⟩
  · exact samePush_err _ a b

/-- R163: an accepted byte makes the start byte register live. -/
theorem pushStartByte_same {a b : Decoder} (v : Byte) (hpend : a.escPend = b.escPend) :
    SamePush (pushStartByte v a) (pushStartByte v b) := by
  unfold pushStartByte
  cases startOf v with
  | none => exact samePush_err _ a b
  | some st => exact ⟨rfl, by simp [SameDecoder, decStateCode, hpend]⟩

/-- Two pushes, of one byte or of several, that both fault the same or both give the same verdicts. -/
def SameVerdicts {α : Type} (x y : Except Fault (α × Decoder)) : Prop :=
  (∃ e, x = .error e ∧ y = .error e) ∨ ∃ o d1 d2, x = .ok (o, d1) ∧ y = .ok (o, d2) ∧ SameDecoder d1 d2

theorem sameVerdicts_ok {x y : PushOutcome × Decoder} (h : SamePush x y) : SameVerdicts (.ok x) (.ok y) := by
  obtain ⟨ho, hd⟩ := h
  obtain ⟨o, d1⟩ := x
  obtain ⟨_, d2⟩ := y
  cases ho
  exact .inr ⟨o, d1, d2, rfl, rfl, hd⟩

theorem sameVerdicts_refl {α : Type} (x : Except Fault (α × Decoder)) : SameVerdicts x x := by
  rcases x with e | ⟨o, d⟩
  · exact .inl ⟨e, rfl, rfl⟩
  · exact .inr ⟨o, d, d, rfl, rfl, sameDecoder_refl d⟩

theorem decoderPush_same {a b : Decoder} (v : Byte) (h : SameDecoder a b) :
    SameVerdicts (decoderPush v a) (decoderPush v b) := by
  by_cases hall : 6 ≤ (decStateCode a.state).toNat
  · rw [eq_of_sameDecoder h hall]; exact sameVerdicts_refl _
  have ⟨hst, hpend, hstart, h0, h1, h2, h3⟩ := h
  unfold decoderPush
  rw [← hst]
  cases hcase : a.state <;> simp only [hcase, decStateCode] at hall hstart h0 h1 h2 h3
  case initialEsc =>
    refine sameVerdicts_ok ?_
    split_ifs
    · exact ⟨rfl, by simp [SameDecoder, decStateCode, hpend]⟩
    · exact ⟨rfl, h⟩
  case startByte => exact sameVerdicts_ok (pushStartByte_same v hpend)
  case directionAndChannel | command | dataLow | dataHigh =>
    refine sameVerdicts_ok (pushData_same v h fun u => ?_)
    simp_all [SameDecoder, decStateCode]
  all_goals exact absurd (by decide) hall

theorem decoderPushAll_same {a b : Decoder} (bs : List Byte) (h : SameDecoder a b) :
    SameVerdicts (decoderPushAll bs a) (decoderPushAll bs b) := by
  induction bs generalizing a b with
  | nil => exact .inr ⟨[], a, b, rfl, rfl, h⟩
  | cons v bs ih =>
    simp only [decoderPushAll]
    rcases decoderPush_same v h with ⟨e, ha, hb⟩ | ⟨o, a1, b1, ha, hb, h1⟩ <;> rw [ha, hb]
    · exact .inl ⟨e, rfl, rfl⟩
    · rcases ih h1 with ⟨e, ha, hb⟩ | ⟨os, a2, b2, ha, hb, h2⟩ <;> simp only [ha, hb]
      · exact .inl ⟨e, rfl, rfl⟩
      · exact .inr ⟨o :: os, a2, b2, rfl, rfl, h2⟩

/-! ### Transact units that agree on their live registers -/

/-- R191 writes every register that the exchange will read. -/
theorem startedTransact_same (f : Frame) (t : Micros) (a b : Transact) :
    SameTransact (startedTransact f t a) (startedTransact f t b) :=
  ⟨rfl, rfl, fun _ => ⟨rfl, rfl, sameEncoder_refl _, decoderInit_same a.dec b.dec⟩⟩

theorem afterVerdict_same {a b : Transact} {da db : Decoder} (o : PushOutcome) (h : SameTransact a b) (hx : exchanging a)
    (hd : SameDecoder da db) : SameTransact (afterVerdict o da a) (afterVerdict o db b) := by
  obtain ⟨hphase, hresult, hlive⟩ := h
  obtain ⟨htimeout, helapsed, henc, _⟩ := hlive hx
  cases o with
  | more => exact ⟨hphase, hresult, fun _ => ⟨htimeout, helapsed, henc, hd⟩⟩
  | frame g => exact ⟨rfl, by simp [afterVerdict, helapsed], fun _ => ⟨htimeout, helapsed, henc, hd⟩⟩
  | err e => exact ⟨rfl, rfl, fun _ => ⟨htimeout, helapsed, henc, hd⟩⟩

theorem afterIdlePoll_same {a b : Transact} (h : SameTransact a b) (hx : exchanging a) :
    SameTransact (afterIdlePoll a) (afterIdlePoll b) := by
  obtain ⟨hphase, hresult, hlive⟩ := h
  obtain ⟨htimeout, helapsed, henc, hdec⟩ := hlive hx
  unfold afterIdlePoll
  rw [htimeout, helapsed]
  split_ifs
  · exact ⟨rfl, rfl, fun _ => ⟨rfl, rfl, henc, hdec⟩⟩
  · exact ⟨hphase, hresult, fun _ => ⟨rfl, rfl, henc, hdec⟩⟩

/-! ### States that agree on their live registers, under each update -/

section Updates

variable {a b : State}

theorem sameLive_withEnc {d e : Encoder} (h : SameLive a b) (he : SameEncoder d e) :
    SameLive (a.withEnc d) (b.withEnc e) := by
  obtain ⟨_, hdec, htxn, henv, hcall, hhost, hres⟩ := h
  exact ⟨he, hdec, htxn, henv, hcall, hhost, hres⟩

theorem sameLive_withDec {d e : Decoder} (h : SameLive a b) (hd : SameDecoder d e) :
    SameLive (a.withDec d) (b.withDec e) := by
  obtain ⟨henc, _, htxn, henv, hcall, hhost, hres⟩ := h
  exact ⟨henc, hd, htxn, henv, hcall, hhost, hres⟩

theorem sameLive_withTxn {x y : Transact} (h : SameLive a b) (hx : SameTransact x y) :
    SameLive (a.withTxn x) (b.withTxn y) := by
  obtain ⟨henc, hdec, _, henv, hcall, hhost, hres⟩ := h
  exact ⟨henc, hdec, hx, henv, hcall, hhost, hres⟩

theorem sameLive_withEnv (v : Environment) (h : SameLive a b) : SameLive (a.withEnv v) (b.withEnv v) := by
  obtain ⟨henc, hdec, htxn, _, hcall, hhost, hres⟩ := h
  exact ⟨henc, hdec, htxn, rfl, hcall, hhost, hres⟩

theorem sameLive_withCall (c : Option Call) (h : SameLive a b) : SameLive (a.withCall c) (b.withCall c) := by
  obtain ⟨henc, hdec, htxn, henv, _, hhost, hres⟩ := h
  exact ⟨henc, hdec, htxn, henv, rfl, hhost, hres⟩

theorem sameLive_withHost (l : List HostInput) (h : SameLive a b) : SameLive (a.withHost l) (b.withHost l) := by
  obtain ⟨henc, hdec, htxn, henv, hcall, _, hres⟩ := h
  exact ⟨henc, hdec, htxn, henv, hcall, rfl, hres⟩

theorem sameLive_withRes (r : Option Res) (h : SameLive a b) : SameLive (a.withRes r) (b.withRes r) := by
  obtain ⟨henc, hdec, htxn, henv, hcall, hhost, _⟩ := h
  exact ⟨henc, hdec, htxn, henv, hcall, hhost, rfl⟩

/-- After a reset event no unit has a live latch, whatever it held. -/
theorem sameLive_resetEvent (h : SameLive a b) : SameLive (resetEvent a) (resetEvent b) :=
  sameLive_withTxn (sameLive_withDec (sameLive_withEnc h (sameEncoder_refl _)) (sameDecoder_refl _))
    ⟨rfl, rfl, fun _ => ⟨rfl, rfl, sameEncoder_refl _, sameDecoder_refl _⟩⟩

/-- A call's return reads the phase and the result alone (R199). -/
theorem sameLive_finishCall (c : Call) (h : SameLive a b) : SameLive (finishCall c a) (finishCall c b) := by
  have ⟨_, _, ⟨hphase, hresult, _⟩, _⟩ := h
  rcases finishCall_cases c a with ⟨r, ha, har, heq⟩ | ⟨hgo, heq⟩ <;> rw [heq]
  · have hb : finishCall c b = (b.withCall none).withRes (some (callOutcome c r)) := by
      simp [finishCall, ← hphase, ← hresult, ha, har]
    rw [hb]
    exact sameLive_withRes _ (sameLive_withCall _ h)
  · rw [hphase, hresult] at hgo
    rcases finishCall_cases c b with ⟨r, hb, hbr, _⟩ | ⟨_, heqb⟩
    · simp [hb, hbr] at hgo
    · rwa [heqb]

end Updates

/-! ### Answers that agree -/

theorem endWith_same {a b : State} (r : Res) (h : SameLive a b) : SameAnswer (endWith r a) (endWith r b) :=
  sameLive_withRes _ h

theorem thenDo_same {f : State → State} {x y : StepOutcome} (hf : ∀ {a b}, SameLive a b → SameLive (f a) (f b))
    (h : SameAnswer x y) : SameAnswer (thenDo f x) (thenDo f y) := by
  cases x <;> cases y
  case next.next => exact hf h
  all_goals exact h

section Answers

variable {a b : State}

theorem pushStandalone_same (v : Byte) (h : SameLive a b) : SameAnswer (pushStandalone v a) (pushStandalone v b) := by
  have ⟨_, hdec, _⟩ := h
  unfold pushStandalone
  rcases decoderPush_same v hdec with ⟨e, ha, hb⟩ | ⟨o, d1, d2, ha, hb, hd⟩ <;> rw [ha, hb]
  · rfl
  · exact endWith_same _ (sameLive_withDec h hd)

theorem receiveFrame_same (st : Byte) (p : Payload) (k : Byte) (h : SameLive a b) :
    SameAnswer (receiveFrame st p k a) (receiveFrame st p k b) := by
  have ⟨_, hdec, _⟩ := h
  unfold receiveFrame
  rcases decoderPushAll_same (physicalForm st p k) hdec with ⟨e, ha, hb⟩ | ⟨os, d1, d2, ha, hb, hd⟩ <;> rw [ha, hb]
  · rfl
  · exact endWith_same _ (sameLive_withDec h hd)

theorem transactStart_same (f : Frame) (t : Micros) (h : SameLive a b) :
    SameAnswer (transactStart f t a) (transactStart f t b) := by
  have ⟨_, _, ⟨hphase, _⟩, _⟩ := h
  unfold transactStart
  rw [hphase]
  split_ifs
  · rfl
  · rfl
  · exact sameLive_withTxn h (startedTransact_same f t a.txn b.txn)

theorem stepSend_same (h : SameLive a b) (hx : exchanging a.txn) : SameAnswer (stepSend a) (stepSend b) := by
  have ⟨_, _, ⟨hphase, hresult, hlive⟩, henv, _⟩ := h
  obtain ⟨htimeout, helapsed, henc, hdec⟩ := hlive hx
  obtain ⟨hout, hnext⟩ := encoderNext_same henc
  cases ho : (encoderNext a.txn.enc).1 with
  | some v =>
    rw [stepSend_eq_next.mpr (.inl ⟨v, ho, rfl⟩), stepSend_eq_next.mpr (.inl ⟨v, hout.symm.trans ho, rfl⟩), henv]
    exact sameLive_withEnv _ (sameLive_withTxn h ⟨hphase, hresult, fun _ => ⟨htimeout, helapsed, hnext, hdec⟩⟩)
  | none =>
    rw [stepSend_eq_next.mpr (.inr ⟨ho, rfl⟩), stepSend_eq_next.mpr (.inr ⟨hout.symm.trans ho, rfl⟩)]
    exact sameLive_withTxn h ⟨rfl, hresult, fun _ => ⟨htimeout, helapsed, hnext, hdec⟩⟩

theorem stepPoll_same (h : SameLive a b) (hx : exchanging a.txn) : SameAnswer (stepPoll a) (stepPoll b) := by
  have ⟨_, _, htxn, henv, _⟩ := h
  have ⟨_, _, hlive⟩ := htxn
  obtain ⟨_, _, _, hdec⟩ := hlive hx
  unfold stepPoll
  rw [henv]
  rcases connPoll b.env with ⟨_ | v, w⟩
  · exact sameLive_withEnv _ (sameLive_withTxn h (afterIdlePoll_same htxn hx))
  · rcases decoderPush_same v hdec with ⟨e, ha, hb⟩ | ⟨o, d1, d2, ha, hb, hd⟩ <;> simp only [ha, hb]
    · rfl
    · exact sameLive_withEnv _ (sameLive_withTxn h (afterVerdict_same o htxn hx hd))

theorem transactStep_same (h : SameLive a b) : SameAnswer (transactStep a) (transactStep b) := by
  have ⟨_, _, ⟨hphase, _⟩, _⟩ := h
  unfold transactStep
  rw [← hphase]
  cases hcase : a.txn.phase with
  | idle => rfl
  | send => exact stepSend_same h (.inl hcase)
  | poll => exact stepPoll_same h (.inr hcase)
  | done => rfl

theorem exec_same (i : Instr) (h : SameLive a b) : SameAnswer (exec i a) (exec i b) := by
  have ⟨henc, hdec, _⟩ := h
  have hform := exec_form i
  generalize exec i = g at hform
  cases hform with
  | refuse e => rfl
  | answer r => exact endWith_same r h
  | encLoad f _ => exact endWith_same _ (sameLive_withEnc h (sameEncoder_refl _))
  | encNext _ =>
    obtain ⟨hout, hnext⟩ := encoderNext_same henc
    unfold execEncNext
    rw [hout]
    exact endWith_same _ (sameLive_withEnc h hnext)
  | decInit _ => exact endWith_same _ (sameLive_withDec h (decoderInit_same a.dec b.dec))
  | push v _ => exact pushStandalone_same v h
  | receive st p k _ => exact receiveFrame_same st p k h
  | start f t _ => exact thenDo_same (sameLive_withRes _) (transactStart_same f t h)
  | advance _ => exact thenDo_same (sameLive_withRes _) (transactStep_same h)
  | begin c f t _ => exact thenDo_same (sameLive_withCall _) (transactStart_same f t h)

end Answers

/-- Settles O58, by the branches of a step: each reads the call, the host's inputs and live registers only. -/
theorem deadRegistersAreNeverRead : Obligations.DeadRegistersAreNeverRead := by
  intro a b h
  have ⟨_, _, _, _, hcall, hhost, _⟩ := h
  unfold step
  rw [hcall, hhost]
  cases b.call with
  | some c => exact thenDo_same (sameLive_finishCall c) (transactStep_same h)
  | none =>
    rcases b.host with _ | ⟨_ | _, rest⟩
    · exact h
    · rename_i r
      cases hdec : decode r with
      | error e => simp [hdec, SameAnswer]
      | ok i => simpa only [hdec] using exec_same i (sameLive_withHost rest h)
    · exact sameLive_resetEvent (sameLive_withHost rest h)

end Sys2Proof.Proofs

/-! PROOFS. The calls of a step to the environment, their order, and the free answers of a poll (`20_memory.md` R63 to R65,
R76). -/

namespace Sys2Proof.Proofs

open Sys2Proof Sys2Proof.Machine Sys2Proof.Laws

/-! ### The calls of a step -/

/-- The calls to the environment, in order, that a step from phase `p` may make (R76, R195 to R198). -/
inductive StepCalls (p : Phase) : List EnvCall → Prop where
  /-- No call. -/
  | none : StepCalls p []
  /-- A byte of the request is sent (R195). -/
  | transmit (b : Byte) (hp : p = .send) : StepCalls p [.transmit b]
  /-- A ready poll (R196). -/
  | receive (b : Byte) (hp : p = .poll) : StepCalls p [.ready true, .receive b]
  /-- An idle poll (R197). -/
  | wait (hp : p = .poll) : StepCalls p [.ready false, .delay 1]

/-- From phase `p`, `v` becomes `w` by the calls of one step. -/
def MakesStepCalls (p : Phase) (v w : Environment) : Prop := ∃ cs, w.trace = v.trace ++ cs ∧ StepCalls p cs

/-- An environment whose trace stands was not called. -/
theorem makesStepCalls_of_trace_eq (p : Phase) {v w : Environment} (h : w.trace = v.trace) : MakesStepCalls p v w :=
  ⟨[], by simp [h], .none⟩

theorem connTransmit_makesStepCalls (b : Byte) (v : Environment) : MakesStepCalls .send v (connTransmit b v) :=
  ⟨_, rfl, .transmit b rfl⟩

theorem connPoll_makesStepCalls {v : Environment} {b : Byte} (h : (connPoll v).1 = .byte b) :
    MakesStepCalls .poll v (connPoll v).2 := by
  obtain ⟨htrace, _⟩ := connPoll_logs v
  rw [h] at htrace
  exact ⟨_, htrace, .receive b rfl⟩

theorem delayUs_makesStepCalls {v : Environment} (h : (connPoll v).1 = .idle) :
    MakesStepCalls .poll v (delayUs Config.pollDelayUs (connPoll v).2) := by
  obtain ⟨htrace, _⟩ := connPoll_logs v
  rw [h] at htrace
  exact ⟨_, by simp [delayUs, htrace, pollCalls], .wait rfl⟩

theorem transactStep_makesStepCalls {s t : State} (h : transactStep s = .next t) :
    MakesStepCalls s.txn.phase s.env t.env := by
  rcases transactStep_eq_next.mp h with ⟨hphase, h⟩ | ⟨hphase, h⟩ <;> rw [hphase]
  · rcases stepSend_eq_next.mp h with ⟨b, _, rfl⟩ | ⟨_, rfl⟩
    · exact connTransmit_makesStepCalls b s.env
    · exact makesStepCalls_of_trace_eq _ rfl
  · rcases stepPoll_eq_next.mp h with ⟨b, o, d, hbyte, _, rfl⟩ | ⟨hidle, rfl⟩
    · exact connPoll_makesStepCalls hbyte
    · exact delayUs_makesStepCalls hidle

/-- Of all the forms of an instruction's meaning, `TXN.STEP` alone calls the environment. -/
theorem exec_makesStepCalls {i : Instr} {s t : State} (h : exec i s = .next t) :
    MakesStepCalls s.txn.phase s.env t.env := by
  have hform := exec_form i
  generalize exec i = g at h hform
  have hstands : t.env = s.env → MakesStepCalls s.txn.phase s.env t.env := fun he =>
    makesStepCalls_of_trace_eq _ (by rw [he])
  cases hform with
  | refuse e => cases h
  | answer r | encLoad f _ | encNext _ | decInit _ => cases endWith_eq_next.mp h; exact hstands rfl
  | push b _ => obtain ⟨o, d, _, rfl⟩ := pushStandalone_eq_next.mp h; exact hstands rfl
  | receive st p k _ => obtain ⟨os, d, _, rfl⟩ := receiveFrame_eq_next.mp h; exact hstands rfl
  | start f m _ =>
    obtain ⟨u, hu, rfl⟩ := thenDo_eq_next.mp h
    obtain ⟨_, _, rfl⟩ := transactStart_eq_next.mp hu
    exact hstands rfl
  | advance _ =>
    obtain ⟨u, hu, rfl⟩ := execTxnStep_eq_next.mp h
    rw [State.withRes_env]
    exact transactStep_makesStepCalls hu
  | begin c f m _ =>
    obtain ⟨_, _, rfl⟩ := beginCall_eq_next.mp h
    exact hstands rfl

theorem step_makesStepCalls {s t : State} (h : step s = .next t) : MakesStepCalls s.txn.phase s.env t.env := by
  rcases step_eq_next.mp h with ⟨c, _, hc⟩ | ⟨_, _, rfl⟩ | ⟨rest, _, _, rfl⟩ | ⟨r, rest, i, _, _, _, hexec⟩
  · obtain ⟨u, hu, rfl⟩ := advanceCall_eq_next.mp hc
    obtain ⟨_, _, henv⟩ := finishCall_frame c u
    rw [henv]
    exact transactStep_makesStepCalls hu
  · exact makesStepCalls_of_trace_eq _ rfl
  · exact makesStepCalls_of_trace_eq _ rfl
  · exact exec_makesStepCalls (s := s.withHost rest) hexec

/-- Settles O41: each of the four lists of calls is one of its disjuncts, and none has a `create`. -/
theorem environmentCallOrder : Obligations.EnvironmentCallOrder := by
  intro s t h
  obtain ⟨cs, htrace, hcalls⟩ := step_makesStepCalls h
  refine ⟨cs, htrace, ?_⟩
  cases hcalls with
  | none => exact ⟨by simp, .inl rfl⟩
  | transmit b hp => exact ⟨by simp, .inr (.inl ⟨hp, b, rfl⟩)⟩
  | receive b hp => exact ⟨by simp, .inr (.inr (.inl ⟨hp, b, rfl⟩))⟩
  | wait hp => exact ⟨by simp, .inr (.inr (.inr ⟨hp, rfl⟩))⟩

/-! ### Free answers -/

/-- The environment with one answer fixed and none after it. -/
def fixAnswer (a : PollAnswer) (v : Environment) : Environment := { v with answers := [a] }

/-- The environment with `n` draws counted (log entry 3). -/
def countDraws (n : Nat) (v : Environment) : Environment := { v with draws := n }

/-- The state whose next free answer is fixed beforehand (log entry 3). -/
def fixDraw (s : State) : State := s.withEnv (fixAnswer (freeAnswer s.env.draws) s.env)

/-- The state with `n` draws counted (log entry 3). -/
def countStateDraws (n : Nat) (s : State) : State := s.withEnv (countDraws n s.env)

/-- A poll with no answer fixed is, but for the draw it counts, the poll with the drawn answer fixed. -/
theorem connPoll_free {v : Environment} (h : v.answers = []) :
    connPoll v = ((connPoll (fixAnswer (freeAnswer v.draws) v)).1,
      countDraws (v.draws + 1) (connPoll (fixAnswer (freeAnswer v.draws) v)).2) := by
  rcases connPoll_cases v with ⟨a, rest, hfixed, _⟩ | ⟨_, hpoll⟩
  · simp [h] at hfixed
  · rw [hpoll]
    simp [connPoll, nextAnswer, fixAnswer, countDraws, h]

/-- Phase `Poll` meets the answers through its poll alone (R196 to R198). -/
theorem stepPoll_free {s : State} (h : s.env.answers = []) :
    stepPoll s = thenDo (countStateDraws (s.env.draws + 1)) (stepPoll (fixDraw s)) := by
  simp only [stepPoll, fixDraw, State.withEnv_env, State.withEnv_txn]
  rw [connPoll_free h]
  rcases connPoll (fixAnswer (freeAnswer s.env.draws) s.env) with ⟨_ | b, w⟩
  · rfl
  · cases hpush : decoderPush b s.txn.dec <;> simp only [hpush] <;> rfl

theorem execTxnStep_of_poll {s : State} (h : s.txn.phase = .poll) :
    exec .txnStep s = thenDo (fun t => t.withRes (some .nothing)) (stepPoll s) := by
  simp only [exec, execTxnStep, transactStep, h]

theorem thenDo_thenDo (f g : State → State) (o : StepOutcome) :
    thenDo f (thenDo g o) = thenDo (fun s => f (g s)) o := by
  cases o <;> rfl

/-- Settles O34: the fixed answer is the one drawn. -/
theorem freePollsBehaveAsFixedOnes : Obligations.FreePollsBehaveAsFixedOnes := by
  intro s hphase hnone
  have hfixed : (fixDraw s).txn.phase = .poll := hphase
  refine ⟨freeAnswer s.env.draws, ?_⟩
  calc exec .txnStep s
      = thenDo (fun t => t.withRes (some .nothing)) (stepPoll s) := execTxnStep_of_poll hphase
    _ = thenDo (fun t => t.withRes (some .nothing))
          (thenDo (countStateDraws (s.env.draws + 1)) (stepPoll (fixDraw s))) := by rw [stepPoll_free hnone]
    _ = thenDo (countStateDraws (s.env.draws + 1))
          (thenDo (fun t => t.withRes (some .nothing)) (stepPoll (fixDraw s))) := by
        rw [thenDo_thenDo, thenDo_thenDo]
        rfl
    _ = thenDo (countStateDraws (s.env.draws + 1)) (exec .txnStep (fixDraw s)) := by rw [execTxnStep_of_poll hfixed]

end Sys2Proof.Proofs

/-! PROOFS. The decoder and the encoder of requests, and the opcode table (`30_encoding.md` R90 to R92, R99 to R102, R110,
R114). -/

namespace Sys2Proof.Proofs

open Sys2Proof Sys2Proof.Machine Sys2Proof.Laws

/-! ### The CTRL and START rows -/

theorem decodeControl_eq_ok {b : Byte} {i : Instr} :
    decodeControl b = .ok i ↔ (b = Config.esc ∧ i = .esc) ∨ (b = Config.etx ∧ i = .etx) := by
  constructor
  · intro h
    unfold decodeControl at h
    split_ifs at h with hesc hetx <;> cases h
    · exact .inl ⟨hesc, rfl⟩
    · exact .inr ⟨hetx, rfl⟩
  · rintro (⟨rfl, rfl⟩ | ⟨rfl, rfl⟩) <;> rfl

/-- The START row of a start byte (R91). -/
def startRow : StartByte → Instr
  | .stx => .stx
  | .ack => .ack
  | .nack => .nack

theorem decodeStart_eq_ok {b : Byte} {i : Instr} :
    decodeStart b = .ok i ↔ ∃ st, b = startValue st ∧ i = startRow st := by
  constructor
  · intro h
    unfold decodeStart at h
    split_ifs at h with hstx hack hnack <;> cases h
    · exact ⟨.stx, hstx, rfl⟩
    · exact ⟨.ack, hack, rfl⟩
    · exact ⟨.nack, hnack, rfl⟩
  · rintro ⟨st, rfl, rfl⟩
    cases st <;> rfl

theorem encode_startRow (st : StartByte) : encode (startRow st) = .start (startValue st) := by cases st <;> rfl

/-! ### The FRAME rows -/

theorem append_eq_append_iff {n m : Nat} {x u : BitVec n} {y v : BitVec m} : x ++ y = u ++ v ↔ x = u ∧ y = v := by
  refine ⟨fun h => ⟨?_, ?_⟩, fun ⟨hx, hy⟩ => by rw [hx, hy]⟩
  · rw [← append_high x y, h, append_high]
  · rw [← append_low x y, h, append_low]

/-- The 72-bit pattern of a FRAME row (R92). -/
def frameBits (start d0 d1 d2 d3 chk : Byte) : BitVec 72 :=
  Config.esc ++ start ++ d0 ++ d1 ++ d2 ++ d3 ++ Config.esc ++ Config.etx ++ chk

/-- The FRAME row of a start byte (R92, R93). -/
def frameRow (st : StartByte) (d0 d1 d2 d3 chk : Byte) : Instr :=
  match st with
  | .stx => .frameStx d0 d1 d2 d3 chk
  | .ack => .frameAck d0 d1 d2 d3 chk
  | .nack => .frameNack d0 d1 d2 d3 chk

theorem encode_frameRow (st : StartByte) (d0 d1 d2 d3 chk : Byte) :
    encode (frameRow st d0 d1 d2 d3 chk) = .frame (frameBits (startValue st) d0 d1 d2 d3 chk) := by
  cases st <;> rfl

/-- A 72-bit pattern is its nine bytes joined. -/
theorem join_framePositions (bits : BitVec 72) :
    framePosition bits 0 ++ framePosition bits 1 ++ framePosition bits 2 ++ framePosition bits 3 ++
      framePosition bits 4 ++ framePosition bits 5 ++ framePosition bits 6 ++ framePosition bits 7 ++
      framePosition bits 8 = bits := by
  unfold framePosition
  iterate 8 rw [BitVec.extractLsb'_append_extractLsb'_eq_extractLsb' (by rfl)]
  exact whole_field bits

theorem framingBytesStand_iff {bits : BitVec 72} :
    framingBytesStand bits = true ↔ framePosition bits 0 = Config.esc ∧ framePosition bits 6 = Config.esc ∧
      framePosition bits 7 = Config.etx := by
  simp [framingBytesStand, and_assoc]

theorem eq_frameBits_iff {bits : BitVec 72} {start d0 d1 d2 d3 chk : Byte} :
    bits = frameBits start d0 d1 d2 d3 chk ↔ framingBytesStand bits = true ∧ framePosition bits 1 = start ∧
      framePosition bits 2 = d0 ∧ framePosition bits 3 = d1 ∧ framePosition bits 4 = d2 ∧ framePosition bits 5 = d3 ∧
      framePosition bits 8 = chk := by
  conv_lhs => rw [← join_framePositions bits]
  unfold frameBits
  iterate 8 rw [append_eq_append_iff]
  rw [framingBytesStand_iff]
  tauto

theorem decodeFrame_eq_ok {bits : BitVec 72} {i : Instr} :
    decodeFrame bits = .ok i ↔
      ∃ st d0 d1 d2 d3 chk, bits = frameBits (startValue st) d0 d1 d2 d3 chk ∧ i = frameRow st d0 d1 d2 d3 chk := by
  constructor
  · intro h
    unfold decodeFrame at h
    split_ifs at h with hframing hstx hack hnack <;> cases h
    · exact ⟨.stx, _, _, _, _, _, eq_frameBits_iff.mpr ⟨hframing, hstx, rfl, rfl, rfl, rfl, rfl⟩, rfl⟩
    · exact ⟨.ack, _, _, _, _, _, eq_frameBits_iff.mpr ⟨hframing, hack, rfl, rfl, rfl, rfl, rfl⟩, rfl⟩
    · exact ⟨.nack, _, _, _, _, _, eq_frameBits_iff.mpr ⟨hframing, hnack, rfl, rfl, rfl, rfl, rfl⟩, rfl⟩
  · rintro ⟨st, d0, d1, d2, d3, chk, hbits, rfl⟩
    obtain ⟨hframing, hstart, h0, h1, h2, h3, hchk⟩ := eq_frameBits_iff.mp hbits
    unfold decodeFrame
    rw [if_pos hframing, hstart, h0, h1, h2, h3, hchk]
    cases st <;> rfl

/-! ### The MSG rows -/

/-- The MSG row of a message kind (R99, R101). -/
def messageRow (k : Kind) (c : Channel) (w : Byte) (a : Word) : Instr :=
  match k.toNat with
  | 0 => .getword c w a
  | 1 => .resetbitmask c w a
  | 2 => .setbitmask c w a
  | _ => .setword c w a

theorem decodeMessage_eq_messageRow (b0 b1 b2 b3 : Byte) :
    decodeMessage b0 b1 b2 b3 = messageRow (byte0Kind b0) (byte0Channel b0) b1 (joinBytes b2 b3) := rfl

theorem encode_messageRow (k : Kind) (c : Channel) (w : Byte) (a : Word) :
    encode (messageRow k c w a) = encodeMessage k c w a := by
  match k with
  | 0#2 | 1#2 | 2#2 | 3#2 => rfl

theorem decode_encodeMessage (k : Kind) (c : Channel) (w : Byte) (a : Word) :
    decode (encodeMessage k c w a) = .ok (messageRow k c w a) := by
  have hkind : byte0Kind (k ++ c) = k := append_high k c
  have hchannel : byte0Channel (k ++ c) = c := append_low k c
  have harg : joinBytes (a.extractLsb' 0 8) (a.extractLsb' 8 8) = a := cut_join (n := 8) (m := 8) a
  unfold encodeMessage decode
  simp only [decodeMessage_eq_messageRow, hkind, hchannel, harg]

theorem encode_decodeMessage (b0 b1 b2 b3 : Byte) : encode (decodeMessage b0 b1 b2 b3) = .msg b0 b1 b2 b3 := by
  have hjoin : byte0Kind b0 ++ byte0Channel b0 = b0 := cut_join (n := 2) (m := 6) b0
  have hlow : (joinBytes b2 b3).extractLsb' 0 8 = b2 := append_low b3 b2
  have hhigh : (joinBytes b2 b3).extractLsb' 8 8 = b3 := append_high b3 b2
  rw [decodeMessage_eq_messageRow, encode_messageRow, encodeMessage, hjoin, hlow, hhigh]

/-! ### The round trips -/

/-- Settles O1, format by format: the joined fields are cut out again, an operation's ports are read as they are. -/
theorem decodeEncodeRoundTrip : Obligations.DecodeEncodeRoundTrip := by
  intro i
  cases i with
  | esc | etx | stx | ack | nack => rfl
  | frameStx d0 d1 d2 d3 k => exact decodeFrame_eq_ok.mpr ⟨.stx, d0, d1, d2, d3, k, rfl, rfl⟩
  | frameAck d0 d1 d2 d3 k => exact decodeFrame_eq_ok.mpr ⟨.ack, d0, d1, d2, d3, k, rfl, rfl⟩
  | frameNack d0 d1 d2 d3 k => exact decodeFrame_eq_ok.mpr ⟨.nack, d0, d1, d2, d3, k, rfl, rfl⟩
  | getword c w a | resetbitmask c w a | setbitmask c w a | setword c w a => exact decode_encodeMessage _ c w a
  | _ => rfl

/-- Settles O2, format by format: what decodes is the pattern of its row, every bit of it. -/
theorem encodeDecodeOfPatterns : Obligations.EncodeDecodeOfPatterns := by
  intro r i hpattern h
  cases r with
  | ctrl b => rcases decodeControl_eq_ok.mp h with ⟨rfl, rfl⟩ | ⟨rfl, rfl⟩ <;> rfl
  | start b =>
    obtain ⟨st, rfl, rfl⟩ := decodeStart_eq_ok.mp h
    exact encode_startRow st
  | frame bits =>
    obtain ⟨st, d0, d1, d2, d3, chk, rfl, rfl⟩ := decodeFrame_eq_ok.mp h
    exact encode_frameRow st d0 d1 d2 d3 chk
  | msg b0 b1 b2 b3 =>
    cases h
    exact encode_decodeMessage b0 b1 b2 b3
  | op p => exact absurd rfl (hpattern p)

/-! ### The OP rows -/

/-- The codes of R110 are the first twenty. -/
theorem decodeOperation_of_assigned {p : Ports} (h : p.op.toNat < 0x14) : ∃ i, decodeOperation p = .ok i := by
  unfold decodeOperation
  split
  case h_21 => simp only [imp_false] at *; omega
  all_goals exact ⟨_, rfl⟩

theorem decodeOperation_of_unassigned {p : Ports} (h : 0x14 ≤ p.op.toNat) :
    decodeOperation p = .error (.unassignedOperation p.op) := by
  unfold decodeOperation
  split
  case h_21 => rfl
  all_goals omega

/-- The encoding of an operation has the code it was decoded from. -/
theorem encode_of_decodeOperation {p : Ports} {i : Instr} (h : decodeOperation p = .ok i) :
    ∃ q, encode i = .op q ∧ q.op = p.op := by
  unfold decodeOperation at h
  split at h <;> cases h <;> exact ⟨_, rfl, BitVec.eq_of_toNat_eq (Eq.symm ‹_›)⟩

/-! ### The opcode table -/

/-- The fixed bits of the rows of a format (R114). -/
def formatMask : Nat → Nat
  | 2 => 0xFFFF00000000FFFF00
  | 3 => 0xC0
  | 4 => 0x1F
  | _ => 0xFF

/-- What a row asks of a request. -/
def rowKey (row : TableRow) : Nat × Nat := (row.format, row.value)

/-- What a request shows of itself to the table: its format, and its bits in that format's fixed places. -/
def requestKey : Request → Nat × Nat
  | .ctrl b => (0, b.toNat &&& formatMask 0)
  | .start b => (1, b.toNat &&& formatMask 1)
  | .frame bits => (2, bits.toNat &&& formatMask 2)
  | .msg b0 _ _ _ => (3, b0.toNat &&& formatMask 3)
  | .op p => (4, p.op.toNat &&& formatMask 4)

/-- The fixed bits of a row are those of its format. -/
theorem mask_of_mem_opcodeTable : ∀ row ∈ opcodeTable, row.mask = formatMask row.format := by decide

theorem rowMatches_iff {row : TableRow} (h : row ∈ opcodeTable) (r : Request) :
    rowMatches row r = true ↔ requestKey r = rowKey row := by
  have agree (n x : Nat) :
      (row.format == n && (x &&& row.mask) == row.value) = true ↔ (n, x &&& formatMask n) = rowKey row := by
    rw [mask_of_mem_opcodeTable row h, Bool.and_eq_true, beq_iff_eq, beq_iff_eq, rowKey, Prod.mk.injEq]
    constructor <;> rintro ⟨rfl, hvalue⟩ <;> exact ⟨rfl, hvalue⟩
  cases r <;> exact agree _ _

/-- No two rows ask for the same, so no request matches two rows. -/
theorem rowKeys_nodup : (opcodeTable.map rowKey).Nodup := by decide

theorem index_eq_of_rowKey_eq {n m : Nat} {a b : TableRow} (ha : opcodeTable[n]? = some a) (hb : opcodeTable[m]? = some b)
    (h : rowKey a = rowKey b) : n = m := by
  obtain ⟨hn, rfl⟩ := List.getElem?_eq_some_iff.mp ha
  obtain ⟨hm, rfl⟩ := List.getElem?_eq_some_iff.mp hb
  exact (rowKeys_nodup.getElem_inj_iff (hi := by simpa using hn) (hj := by simpa using hm)).mp (by simpa using h)

theorem exists_row (i : Instr) : ∃ row, opcodeTable[rowIndex i]? = some row := by cases i <;> exact ⟨_, rfl⟩

theorem encodesRow (i : Instr) : EncodesRow.Statement i := by
  cases i
  exacts [EncodesRow.esc, EncodesRow.etx, EncodesRow.stx, EncodesRow.ack, EncodesRow.nack,
    EncodesRow.frameStx _ _ _ _ _, EncodesRow.frameAck _ _ _ _ _, EncodesRow.frameNack _ _ _ _ _,
    EncodesRow.getword _ _ _, EncodesRow.resetbitmask _ _ _, EncodesRow.setbitmask _ _ _, EncodesRow.setword _ _ _,
    EncodesRow.chkCalc _, EncodesRow.encLoad _, EncodesRow.encNext, EncodesRow.decInit, EncodesRow.decPush _,
    EncodesRow.txnStart _ _, EncodesRow.txnStep, EncodesRow.txnRun _ _, EncodesRow.sbFrom _, EncodesRow.sbTomaster _,
    EncodesRow.sbToslave _, EncodesRow.frToslave _, EncodesRow.chFrom _, EncodesRow.chIszero _, EncodesRow.w16Split _,
    EncodesRow.w16Join _, EncodesRow.w16Bit _ _, EncodesRow.tlMkframe _ _ _ _, EncodesRow.plSplit0 _,
    EncodesRow.tlXpkt _ _ _ _ _]

/-- A request shows the table what the encoding of its instruction does: an unread port is no fixed bit. -/
theorem requestKey_encode {r : Request} {i : Instr} (h : decode r = .ok i) : requestKey (encode i) = requestKey r := by
  cases r with
  | op p =>
    obtain ⟨q, hq, hop⟩ := encode_of_decodeOperation h
    rw [hq, requestKey, requestKey, hop]
  | _ => rw [encodeDecodeOfPatterns _ i (by simp) h]

/-- What decodes has the fixed bits of its instruction's row. -/
theorem requestKey_of_decode {r : Request} {i : Instr} {row : TableRow} (h : decode r = .ok i)
    (hrow : opcodeTable[rowIndex i]? = some row) : requestKey r = rowKey row :=
  (requestKey_encode h).symm.trans ((rowMatches_iff (List.mem_of_getElem? hrow) _).mp (encodesRow i row hrow))

/-! ### What has a row's fixed bits decodes -/

theorem framePosition_and (x y : BitVec 72) (n : Nat) :
    framePosition (x &&& y) n = framePosition x n &&& framePosition y n :=
  BitVec.extractLsb'_and

/-- A pattern with the fixed bits of the row of a start byte has that start byte and the framing bytes (R92). -/
theorem framePositions_of_masked {bits : BitVec 72} {start : Byte}
    (h : (bits.toNat &&& formatMask 2) = (frameBits start 0#8 0#8 0#8 0#8 0#8).toNat) :
    framingBytesStand bits = true ∧ framePosition bits 1 = start := by
  have hmasked : bits &&& 0xFFFF00000000FFFF00#72 = frameBits start 0#8 0#8 0#8 0#8 0#8 :=
    BitVec.eq_of_toNat_eq (by simpa [formatMask] using h)
  have keep {n : Nat} (hn : framePosition 0xFFFF00000000FFFF00#72 n = BitVec.allOnes 8) :
      framePosition (bits &&& 0xFFFF00000000FFFF00#72) n = framePosition bits n := by
    rw [framePosition_and, hn, BitVec.and_allOnes]
  obtain ⟨hframing, hstart, _⟩ := eq_frameBits_iff.mp hmasked
  rw [framingBytesStand_iff, keep (by decide), keep (by decide), keep (by decide), ← framingBytesStand_iff] at hframing
  rw [keep (by decide)] at hstart
  exact ⟨hframing, hstart⟩

theorem controlRow_value : ∀ row ∈ opcodeTable, row.format = 0 →
    row.value = Config.esc.toNat ∨ row.value = Config.etx.toNat := by decide

theorem startRow_value : ∀ row ∈ opcodeTable, row.format = 1 → ∃ st ∈ [StartByte.stx, .ack, .nack],
    row.value = (startValue st).toNat := by decide

theorem frameRow_value : ∀ row ∈ opcodeTable, row.format = 2 → ∃ st ∈ [StartByte.stx, .ack, .nack],
    row.value = (frameBits (startValue st) 0#8 0#8 0#8 0#8 0#8).toNat := by decide

theorem operationRow_value : ∀ row ∈ opcodeTable, row.format = 4 → row.value < 0x14 := by decide

/-- In the one-byte formats every bit is fixed (R90, R91). -/
theorem eq_of_masked {b v : Byte} (h : (b.toNat &&& 0xFF) = v.toNat) : b = v :=
  BitVec.eq_of_toNat_eq ((Nat.and_two_pow_sub_one_of_lt_two_pow (n := 8) b.isLt).symm.trans h)

theorem decode_of_requestKey {r : Request} {row : TableRow} (hrow : row ∈ opcodeTable) (h : requestKey r = rowKey row) :
    ∃ i, decode r = .ok i := by
  cases r with
  | ctrl b =>
    obtain ⟨hformat, hvalue⟩ := Prod.mk.inj h
    rcases controlRow_value row hrow hformat.symm with hv | hv
    · exact ⟨_, decodeControl_eq_ok.mpr (.inl ⟨eq_of_masked (hvalue.trans hv), rfl⟩)⟩
    · exact ⟨_, decodeControl_eq_ok.mpr (.inr ⟨eq_of_masked (hvalue.trans hv), rfl⟩)⟩
  | start b =>
    obtain ⟨hformat, hvalue⟩ := Prod.mk.inj h
    obtain ⟨st, _, hv⟩ := startRow_value row hrow hformat.symm
    exact ⟨_, decodeStart_eq_ok.mpr ⟨st, eq_of_masked (hvalue.trans hv), rfl⟩⟩
  | frame bits =>
    obtain ⟨hformat, hvalue⟩ := Prod.mk.inj h
    obtain ⟨st, _, hv⟩ := frameRow_value row hrow hformat.symm
    obtain ⟨hframing, hstart⟩ := framePositions_of_masked (hvalue.trans hv)
    have hbits := eq_frameBits_iff.mpr ⟨hframing, hstart, rfl, rfl, rfl, rfl, rfl⟩
    exact ⟨_, decodeFrame_eq_ok.mpr ⟨st, _, _, _, _, _, hbits, rfl⟩⟩
  | msg b0 b1 b2 b3 => exact ⟨_, rfl⟩
  | op p =>
    obtain ⟨hformat, hvalue⟩ := Prod.mk.inj h
    have hcode : p.op.toNat = row.value := (operation_row_bits p.op).symm.trans hvalue
    exact decodeOperation_of_assigned (hcode ▸ operationRow_value row hrow hformat.symm)

/-- Settles O3: what decodes has its row's fixed bits, what has a row's fixed bits decodes, and no two rows ask for the
same. -/
theorem decodeFollowsTheTable : Obligations.DecodeFollowsTheTable := by
  intro r n row hrow
  rw [rowMatches_iff (List.mem_of_getElem? hrow)]
  constructor
  · intro hkey
    obtain ⟨i, hi⟩ := decode_of_requestKey (List.mem_of_getElem? hrow) hkey
    obtain ⟨row', hrow'⟩ := exists_row i
    exact ⟨i, hi, index_eq_of_rowKey_eq hrow' hrow ((requestKey_of_decode hi hrow').symm.trans hkey)⟩
  · rintro ⟨i, hi, rfl⟩
    exact requestKey_of_decode hi hrow

/-! ### Written words and unassigned codes -/

/-- Settles O4: each word is decoded by evaluation. -/
theorem writtenWordsDecode : Obligations.WrittenWordsDecode := by
  refine ⟨rfl, rfl, ?_, ?_, rfl, rfl⟩
  · decide
  · decide

theorem step_of_invoke_error {s : State} {r : Request} {e : DecodeError} {rest : List HostInput} (hcall : s.call = none)
    (hhost : s.host = .invoke r :: rest) (hdec : decode r = .error e) : step s = .refused (.undecodable e) := by
  simp only [step, hcall, hhost, hdec]

/-- Settles O5: the decoder's error is the step's refusal. -/
theorem unassignedOperationRefused : Obligations.UnassignedOperationRefused := fun _ _ _ hcall hhost hcode =>
  step_of_invoke_error hcall hhost (decodeOperation_of_unassigned hcode)

end Sys2Proof.Proofs

/-! PROOFS. The wire form, the wire rows met by the standalone decoder, and the message rows (`30_encoding.md` R90 to R104,
`42_decoder.md` R162 to R170). -/

namespace Sys2Proof.Proofs

open Sys2Proof Sys2Proof.Machine Sys2Proof.Safety Sys2Proof.Laws

/-! ### Stuffed bytes -/

theorem stuff_of_ne {b : Byte} (h : b ≠ 0x1B#8) : stuff b = [b] := if_neg h

@[simp] theorem stuff_esc : stuff 0x1B#8 = [0x1B#8, 0x1B#8] := rfl

/-- R95, in the byte's own terms. -/
theorem stuff_eq_double (b : Byte) : stuff b = if b = 0x1B#8 then [b, b] else [b] := by
  by_cases h : b = 0x1B#8
  · subst h; rfl
  · rw [stuff_of_ne h, if_neg h]

theorem stuff_length (b : Byte) : (stuff b).length = 1 + [b].count 0x1B#8 := by
  by_cases h : b = 0x1B#8
  · subst h; rfl
  · simp [stuff_of_ne h, h]

/-- Where a stuffed byte ends can be told, so initial parts compare byte by byte. -/
theorem stuff_append_prefix_iff {a b : Byte} {xs ys : List Byte} :
    stuff a ++ xs <+: stuff b ++ ys ↔ a = b ∧ xs <+: ys := by
  by_cases ha : a = 0x1B#8 <;> by_cases hb : b = 0x1B#8
  · subst ha hb; simp
  · subst ha; simp [stuff_of_ne hb, Ne.symm hb]
  · subst hb; simp [stuff_of_ne ha, ha]
  · simp [stuff_of_ne ha, stuff_of_ne hb]

/-! ### The wire form -/

/-- Nine logical bytes, and one more for each stuffable byte that is doubled (R97). -/
theorem physicalForm_length (start : Byte) (p : Payload) (k : Byte) :
    (physicalForm start p k).length = 9 + [p.d0, p.d1, p.d2, p.d3, k].count 0x1B#8 := by
  have hcount : [p.d0, p.d1, p.d2, p.d3, k].count 0x1B#8 =
      [p.d0].count 0x1B#8 + [p.d1].count 0x1B#8 + [p.d2].count 0x1B#8 + [p.d3].count 0x1B#8 + [k].count 0x1B#8 := by
    simp only [← List.count_append]; rfl
  simp only [physicalForm, List.length_append, stuff_length, hcount, List.length_cons, List.length_nil]
  omega

theorem physicalForm_prefix_iff {s t : Byte} {p q : Payload} {j k : Byte} :
    physicalForm s p j <+: physicalForm t q k ↔ s = t ∧ p = q ∧ j = k := by
  obtain ⟨a0, a1, a2, a3⟩ := p
  obtain ⟨b0, b1, b2, b3⟩ := q
  have hlast : stuff j <+: stuff k ↔ j = k := by
    simpa using stuff_append_prefix_iff (a := j) (b := k) (xs := []) (ys := [])
  simp only [physicalForm, List.append_assoc, List.cons_append, List.nil_append, List.cons_prefix_cons,
    stuff_append_prefix_iff, hlast, Payload.mk.injEq]
  tauto

/-- Settles O18: a wire form that another begins with has its start byte and its payload. -/
theorem wireFormIsPrefixFree : Obligations.WireFormIsPrefixFree := by
  intro f g h
  obtain ⟨hstart, hpayload, _⟩ := physicalForm_prefix_iff.mp h
  obtain ⟨st, p⟩ := f
  obtain ⟨_, q⟩ := g
  cases startValue_injective hstart
  cases hpayload
  rfl

/-- The checksum of a payload of four 0x1B is none (R130). -/
theorem frameChecksum_of_escapes (st : StartByte) :
    frameChecksum ⟨st, ⟨0x1B#8, 0x1B#8, 0x1B#8, 0x1B#8⟩⟩ ≠ 0x1B#8 := by cases st <;> decide

/-- The five stuffable bytes of a frame are not all 0x1B. -/
theorem stuffable_count_le (f : Frame) :
    [f.payload.d0, f.payload.d1, f.payload.d2, f.payload.d3, frameChecksum f].count 0x1B#8 ≤ 4 := by
  by_contra hcount
  obtain ⟨st, a, b, c, d⟩ := f
  have hlength : [a, b, c, d, frameChecksum ⟨st, ⟨a, b, c, d⟩⟩].length ≤ _ := Nat.lt_of_not_le hcount
  have hall := List.count_eq_length.mp (Nat.le_antisymm List.count_le_length hlength)
  simp only [List.forall_mem_cons] at hall
  obtain ⟨rfl, rfl, rfl, rfl, hchecksum, _⟩ := hall
  exact frameChecksum_of_escapes st hchecksum.symm

/-- Settles O17: the shape is the definition, the length is counted byte by byte. -/
theorem wireFormShape : Obligations.WireFormShape := by
  intro f
  have hlength := physicalForm_length (startValue f.start) f.payload (frameChecksum f)
  have hbound := stuffable_count_le f
  refine ⟨?_, hlength, ?_, ?_⟩
  · simp only [← stuff_eq_double, wireForm, physicalForm, List.flatMap_cons, List.flatMap_nil, List.append_nil,
      List.append_assoc]
    rfl
  · rw [wireForm, hlength]; omega
  · rw [wireForm, hlength]; omega

/-! ### The decoder's table -/

theorem checksum_eq_zero_sub (s : Byte) (p : Payload) : checksum s p = 0#8 - coveredSum s p := (BitVec.zero_sub _).symm

/-- R134: a byte is the checksum exactly when it makes the covered sum zero. -/
theorem checksum_eq_iff {s r : Byte} {p : Payload} : checksum s p = r ↔ coveredSum s p + r = 0#8 := by
  rw [checksum_eq_zero_sub]; bv_omega

/-- The verdict on a received checksum byte, by the sum condition (R134, R168). -/
def frameVerdict (st : StartByte) (p : Payload) (r : Byte) : PushOutcome :=
  if coveredSum (startValue st) p + r = 0#8 then .frame ⟨st, p⟩
  else .err (.invalidChecksum (0#8 - coveredSum (startValue st) p) r)

theorem compareChecksum_eq (r : Byte) (d : Decoder) :
    compareChecksum r d = (frameVerdict d.start d.buf r, decoderInit d) := by
  rcases compareChecksum_cases r d with ⟨hsum, h⟩ | ⟨hsum, h⟩ <;> rw [h, frameVerdict]
  · rw [if_pos (checksum_eq_iff.mp hsum)]
  · rw [if_neg (mt checksum_eq_iff.mpr hsum), checksum_eq_zero_sub]

theorem compareChecksum_row (r : Byte) (d : Decoder) :
    verdictRow r d (compareChecksum r d).1 (compareChecksum r d).2 := by
  rw [compareChecksum_eq]
  exact ⟨fun h => ⟨if_pos h, rfl⟩, fun h => ⟨if_neg h, rfl⟩⟩

theorem pushData_row (put : Byte → Decoder) (n : DecState) (b : Byte) (d : Decoder) :
    dataRow put n d b (pushData put n b d).1 (pushData put n b d).2 := by
  rcases pushData_cases put n b d with ⟨hp, hb, h⟩ | ⟨hp, hb, h⟩ | ⟨hp, hb, h⟩ | ⟨hp, hb, h⟩ <;> rw [h] <;>
    simp [dataRow, hp, hb, decoderInit, resetDecoder]

/-- A push of a byte does what the byte's row of the table says (R162 to R168, R170). -/
theorem decoderPush_row (b : Byte) {d : Decoder} (h : ¬ transient d) :
    ∃ x, decoderPush b d = .ok x ∧ decoderRow d b x.1 x.2 := by
  unfold decoderPush decoderRow
  cases hst : d.state with
  | initialEsc =>
    refine ⟨_, rfl, ?_⟩
    split_ifs with hb <;> simp [hb]
  | startByte =>
    refine ⟨_, rfl, ?_⟩
    rcases pushStartByte_cases b d with ⟨st, hb, hpush⟩ | ⟨hb, hpush⟩ <;> rw [hpush]
    · obtain rfl := startOf_eq_some.mp hb
      cases st <;> simp [startValue, Config.stx, Config.ack, Config.nack]
    · obtain ⟨hstx, hack, hnack⟩ := startOf_eq_none.mp hb
      simp [hstx, hack, hnack, decoderInit, resetDecoder]
  | directionAndChannel | command | dataLow | dataHigh => exact ⟨_, rfl, pushData_row _ _ b d⟩
  | finalEsc =>
    refine ⟨_, rfl, ?_⟩
    split_ifs with hb <;> simp [hb, decoderInit, resetDecoder]
  | etxByte =>
    refine ⟨_, rfl, ?_⟩
    rcases pushEtxByte_cases b d with ⟨hb, hpush⟩ | ⟨hb, hpush⟩ | ⟨hetx, hesc, hpush⟩ <;> rw [hpush]
    · simp [hb, Config.etx]
    · simp [hb, Config.esc, decoderInit, resetDecoder]
    · simp [hetx, hesc, decoderInit, resetDecoder]
  | checksum =>
    refine ⟨_, rfl, ?_⟩
    rcases pushChecksum_cases b d with ⟨hp, hb, hpush⟩ | ⟨hiff, hpush⟩ | ⟨hp, hb, hpush⟩ <;> rw [hpush]
    · simp [hp, hb, hst]
    · have hrow := compareChecksum_row b d
      exact ⟨fun hp hb => by simp [hp, hb] at hiff, fun _ _ => hrow, fun _ hb => hb ▸ hrow,
        fun hp hb => absurd (hiff.mp hp) hb⟩
    · simp [hp, hb, decoderInit, resetDecoder]
  | successful => exact absurd (.inl hst) h
  | error => exact absurd (.inr hst) h

/-- Settles O21: each of the five rows is a push of its byte. -/
theorem wireByteRowsPushTheirByte : Obligations.WireByteRowsPushTheirByte := by
  intro i b s hrow hd
  obtain ⟨⟨o, d⟩, hpush, htable⟩ := decoderPush_row b hd
  have hexec : exec i s = pushStandalone b s := by
    simp only [List.mem_cons, Prod.mk.injEq, List.not_mem_nil, or_false] at hrow
    rcases hrow with ⟨rfl, rfl⟩ | ⟨rfl, rfl⟩ | ⟨rfl, rfl⟩ | ⟨rfl, rfl⟩ | ⟨rfl, rfl⟩ <;> rfl
  exact ⟨o, d, htable, hexec.trans (pushStandalone_eq_next.mpr ⟨o, d, hpush, rfl⟩)⟩

/-! ### Bytes that get `More` -/

/-- Every byte of `bs` pushed into `d` gets `More`, and `d1` is left. -/
def Absorbs (bs : List Byte) (d d1 : Decoder) : Prop := decoderPushAll bs d = .ok (List.replicate bs.length .more, d1)

theorem absorbs_nil (d : Decoder) : Absorbs [] d d := rfl

/-- A first byte that gets `More`. -/
theorem Absorbs.cons {b : Byte} {bs : List Byte} {d d1 d2 : Decoder} (hb : decoderPush b d = .ok (.more, d1))
    (h : Absorbs bs d1 d2) : Absorbs (b :: bs) d d2 :=
  decoderPushAll_cons_ok.mpr ⟨_, _, _, hb, h, rfl⟩

theorem absorbs_cons_iff {b : Byte} {bs : List Byte} {d d2 : Decoder} :
    Absorbs (b :: bs) d d2 ↔ ∃ d1, decoderPush b d = .ok (.more, d1) ∧ Absorbs bs d1 d2 := by
  constructor
  · intro h
    obtain ⟨o, d1, os, hb, hbs, hos⟩ := decoderPushAll_cons_ok.mp h
    cases hos
    exact ⟨d1, hb, hbs⟩
  · rintro ⟨d1, hb, hbs⟩
    exact .cons hb hbs

theorem Absorbs.append {xs ys : List Byte} {d d1 d2 : Decoder} (hx : Absorbs xs d d1) (hy : Absorbs ys d1 d2) :
    Absorbs (xs ++ ys) d d2 := by
  induction xs generalizing d with
  | nil => cases hx; exact hy
  | cons b bs ih =>
    obtain ⟨e, hb, hbs⟩ := absorbs_cons_iff.mp hx
    exact .cons hb (ih hbs)

/-- After bytes that get `More`, one more gets its verdict. -/
theorem decoderPushAll_concat {bs : List Byte} {b : Byte} {d d1 d2 : Decoder} {o : PushOutcome} (h : Absorbs bs d d1)
    (hb : decoderPush b d1 = .ok (o, d2)) :
    decoderPushAll (bs ++ [b]) d = .ok (List.replicate bs.length .more ++ [o], d2) := by
  induction bs generalizing d with
  | nil => cases h; exact decoderPushAll_cons_ok.mpr ⟨o, d2, [], hb, rfl, rfl⟩
  | cons c cs ih =>
    obtain ⟨e, hc, hcs⟩ := absorbs_cons_iff.mp h
    exact decoderPushAll_cons_ok.mpr ⟨_, _, _, hc, ih hcs, rfl⟩

/-! ### A stuffed byte into a decoder -/

/-- The 0x1B before a stuffed 0x1B (R95). -/
def stuffing (b : Byte) : List Byte := if b = 0x1B#8 then [0x1B#8] else []

theorem stuff_eq_stuffing_append (b : Byte) : stuff b = stuffing b ++ [b] := by
  by_cases h : b = 0x1B#8
  · subst h; rfl
  · simp [stuff_of_ne h, stuffing, h]

/-- The decoder that has received what is before the byte itself. -/
def pending (b : Byte) (d : Decoder) : Decoder := { d with escPend := decide (b = 0x1B#8) }

/-- The first 0x1B of a pair is noted and nothing else (R164, R167). -/
theorem absorbs_stuffing {d : Decoder} (b : Byte) (hst : destuffing d.state = true) (hp : d.escPend = false) :
    Absorbs (stuffing b) d (pending b d) := by
  have hesc : decoderPush 0x1B#8 d = .ok (.more, { d with escPend := true }) := by
    unfold decoderPush
    cases h : d.state <;> simp only [h, destuffing, Bool.false_eq_true] at hst
    case directionAndChannel | command | dataLow | dataHigh => simp [pushData, hp, h]
    case checksum => simp [pushChecksum, hp, h]
  unfold stuffing pending
  split_ifs with hb
  · exact .cons (by simpa [hb] using hesc) (absorbs_nil _)
  · simpa [hb, ← hp] using absorbs_nil d

/-- State `st` takes a payload byte into the buffer by `put` and goes on to `next` (R164). -/
def TakesData (st next : DecState) (put : Byte → Payload → Payload) : Prop :=
  ∀ (b : Byte) (d : Decoder), d.state = st →
    decoderPush b d = .ok (pushData (fun v => { d with buf := put v d.buf }) next b d)

theorem takesData_directionAndChannel : TakesData .directionAndChannel .command fun v p => { p with d0 := v } :=
  fun b d h => by simp only [decoderPush, h]

theorem takesData_command : TakesData .command .dataLow fun v p => { p with d1 := v } :=
  fun b d h => by simp only [decoderPush, h]

theorem takesData_dataLow : TakesData .dataLow .dataHigh fun v p => { p with d2 := v } :=
  fun b d h => by simp only [decoderPush, h]

theorem takesData_dataHigh : TakesData .dataHigh .finalEsc fun v p => { p with d3 := v } :=
  fun b d h => by simp only [decoderPush, h]

theorem absorbs_stuff {st next : DecState} {put : Byte → Payload → Payload} (htakes : TakesData st next put) (b : Byte)
    {d : Decoder} (hst : d.state = st) (hdata : destuffing st = true) (hp : d.escPend = false) :
    Absorbs (stuff b) d { d with state := next, buf := put b d.buf } := by
  rw [stuff_eq_stuffing_append]
  refine (absorbs_stuffing b (hst ▸ hdata) hp).append (.cons ?_ (absorbs_nil _))
  rw [htakes b (pending b d) hst]
  by_cases hb : b = 0x1B#8 <;> simp [pushData, pending, hb, hp]

/-- A stuffed checksum byte: its last byte is compared (R167, R168). -/
theorem decoderPush_checksum (k : Byte) {d : Decoder} (hst : d.state = .checksum) :
    decoderPush k (pending k d) = .ok (compareChecksum k (pending k d)) := by
  have hpush : decoderPush k (pending k d) = .ok (pushChecksum k (pending k d)) := by
    simp only [decoderPush, pending, hst]
  rw [hpush]
  rcases pushChecksum_cases k (pending k d) with ⟨hp, hb, _⟩ | ⟨_, h⟩ | ⟨hp, hb, _⟩
  · simp [pending, hb] at hp
  · rw [h]
  · simp [pending, hb] at hp

/-! ### A frame row -/

/-- The physical form without its last byte. -/
def physicalInit (start : Byte) (p : Payload) (k : Byte) : List Byte :=
  [0x1B#8, start] ++ stuff p.d0 ++ stuff p.d1 ++ stuff p.d2 ++ stuff p.d3 ++ [0x1B#8, 0x03#8] ++ stuffing k

theorem physicalForm_eq_init_append (start : Byte) (p : Payload) (k : Byte) :
    physicalForm start p k = physicalInit start p k ++ [k] := by
  rw [physicalForm, stuff_eq_stuffing_append k, ← List.append_assoc]
  rfl

theorem physicalInit_length (start : Byte) (p : Payload) (k : Byte) :
    (physicalInit start p k).length = 8 + [p.d0, p.d1, p.d2, p.d3, k].count 0x1B#8 := by
  have hlength := physicalForm_length start p k
  rw [physicalForm_eq_init_append, List.length_append, List.length_singleton] at hlength
  omega

/-- A decoder in `InitialEsc` receives start byte and payload and waits for the checksum byte (R162 to R167). -/
theorem absorbs_physicalInit (st : StartByte) (p : Payload) (k : Byte) {d : Decoder} (hst : d.state = .initialEsc)
    (hp : d.escPend = false) : Absorbs (physicalInit (startValue st) p k) d (pending k ⟨.checksum, false, st, p⟩) := by
  have hhead : Absorbs [0x1B#8, startValue st] d ⟨.directionAndChannel, false, st, d.buf⟩ := by
    refine .cons (d1 := { d with state := .startByte }) (by simp [decoderPush, hst]) (.cons ?_ (absorbs_nil _))
    simp [decoderPush, pushStartByte, hp]
  have htail (q : Payload) : Absorbs [0x1B#8, 0x03#8] ⟨.finalEsc, false, st, q⟩ ⟨.checksum, false, st, q⟩ :=
    .cons rfl (.cons rfl (absorbs_nil _))
  exact hhead.append (absorbs_stuff takesData_directionAndChannel p.d0 rfl rfl rfl)
    |>.append (absorbs_stuff takesData_command p.d1 rfl rfl rfl)
    |>.append (absorbs_stuff takesData_dataLow p.d2 rfl rfl rfl)
    |>.append (absorbs_stuff takesData_dataHigh p.d3 rfl rfl rfl)
    |>.append (htail p)
    |>.append (absorbs_stuffing k rfl rfl)

theorem decoderPushAll_physicalForm (st : StartByte) (p : Payload) (k : Byte) {d : Decoder} (hst : d.state = .initialEsc)
    (hp : d.escPend = false) :
    decoderPushAll (physicalForm (startValue st) p k) d =
      .ok (List.replicate (8 + [p.d0, p.d1, p.d2, p.d3, k].count 0x1B#8) .more ++ [frameVerdict st p k],
        ⟨.initialEsc, false, st, p⟩) := by
  have hlast := (decoderPush_checksum k (d := ⟨.checksum, false, st, p⟩) rfl).trans
    (congrArg Except.ok (compareChecksum_eq k _))
  rw [physicalForm_eq_init_append, ← physicalInit_length (startValue st) p k]
  exact decoderPushAll_concat (absorbs_physicalInit st p k hst hp) hlast

theorem exec_frameRow (st : StartByte) (p : Payload) (k : Byte) (s : State) :
    exec (frameRow st p.d0 p.d1 p.d2 p.d3 k) s = receiveFrame (startValue st) p k s := by cases st <;> rfl

/-- Settles O22: a frame row is a push of its physical form, whose last byte gets the verdict on the checksum. -/
theorem frameRowsAreDecoded : Obligations.FrameRowsAreDecoded := by
  intro i st p k s hrow hst hp
  have hi : i = frameRow st p.d0 p.d1 p.d2 p.d3 k := by
    simp only [List.mem_cons, Prod.mk.injEq, List.not_mem_nil, or_false] at hrow
    rcases hrow with ⟨rfl, rfl⟩ | ⟨rfl, rfl⟩ | ⟨rfl, rfl⟩ <;> rfl
  rw [hi, exec_frameRow]
  exact receiveFrame_eq_next.mpr ⟨_, _, decoderPushAll_physicalForm st p k hst hp, rfl⟩

/-! ### The message rows as frames -/

/-- OR of direction code and channel is their concatenation (R100). -/
theorem packByte0_eq_append : ∀ (k : Kind) (c : Channel), packByte0 k c = k ++ c := by decide

theorem makeFrame_eq_append (c : Channel) (m : CmppMessage) :
    makeFrame c m =
      ⟨.stx, ⟨messageKind m ++ c, messageWaddr m, lowByte (messageArg m), highByte (messageArg m)⟩⟩ := by
  rw [makeFrame, messagePayload, packByte0_eq_append]

/-- Settles O52: the frame of a message row is `makeFrame`, whose byte 0 is kind and channel joined. -/
theorem messageRowsAreMasterFrames : Obligations.MessageRowsAreMasterFrames := by
  intro c w a s
  have hrow (m : CmppMessage) : endWith (.frame (makeFrame c m)) s = .next { s with res := some (.frame
      ⟨.stx, ⟨messageKind m ++ c, messageWaddr m, lowByte (messageArg m), highByte (messageArg m)⟩⟩) } := by
    rw [makeFrame_eq_append]; rfl
  have hget := hrow (.getWord w)
  rw [show lowByte (messageArg (.getWord w)) = 0x00#8 by simp [messageArg, lowByte],
    show highByte (messageArg (.getWord w)) = 0x00#8 by simp [messageArg, highByte]] at hget
  exact ⟨hget, hrow (.resetBitmask w a), hrow (.setBitmask w a), hrow (.setWord w a)⟩

end Sys2Proof.Proofs

/-! PROOFS. The checksum and its operation (`40_checksum.md` R130 to R136). -/

namespace Sys2Proof.Proofs

open Sys2Proof Sys2Proof.Machine Sys2Proof.Safety Sys2Proof.Laws

/-! ### The covered bytes -/

/-- The bytes the checksum is computed from, in the order of R130. -/
def coveredBytes (s : Byte) (p : Payload) : List Byte := [s, p.d0, p.d1, p.d2, p.d3, Config.etx]

theorem checksum_eq_neg_sum (s : Byte) (p : Payload) : checksum s p = -(coveredBytes s p).sum := by
  simp [checksum, coveredBytes, add_assoc]

/-- R130 modulo 256: two checksums agree exactly when the covered bytes have the same sum. -/
theorem checksum_eq_checksum_iff {s t : Byte} {p q : Payload} :
    checksum s p = checksum t q ↔ (coveredBytes s p).sum = (coveredBytes t q).sum := by
  rw [checksum_eq_neg_sum, checksum_eq_neg_sum, neg_inj]

/-- R132: reducing each addition modulo 256 or the sum of naturals once is the same. -/
theorem toNat_sum (bytes : List Byte) : bytes.sum.toNat = (bytes.map BitVec.toNat).sum % 256 := by
  induction bytes with
  | nil => rfl
  | cons b bytes ih => rw [List.sum_cons, BitVec.toNat_add, ih, List.map_cons, List.sum_cons, Nat.add_mod_mod]

/-- R130 on naturals. -/
theorem checksum_toNat (s : Byte) (p : Payload) :
    (checksum s p).toNat =
      (256 - (s.toNat + p.d0.toNat + p.d1.toNat + p.d2.toNat + p.d3.toNat + 0x03) % 256) % 256 := by
  have hsum : ((coveredBytes s p).map BitVec.toNat).sum =
      s.toNat + p.d0.toNat + p.d1.toNat + p.d2.toNat + p.d3.toNat + 0x03 := by
    simp [coveredBytes, Nat.add_assoc]
  rw [checksum_eq_neg_sum, BitVec.toNat_neg, toNat_sum, hsum]

/-! ### The laws of the checksum -/

/-- R133 (a): permuted payloads give permuted covered bytes. -/
theorem coveredBytes_perm (s : Byte) {p q : Payload}
    (h : [p.d0, p.d1, p.d2, p.d3].Perm [q.d0, q.d1, q.d2, q.d3]) : (coveredBytes s p).Perm (coveredBytes s q) :=
  (h.append_right [Config.etx]).cons s

/-- Settles O11: a sum does not depend on the order of its terms, and the checksum is what the covered sum lacks to a
multiple of 256. -/
theorem checksumLaws : Obligations.ChecksumLaws := by
  refine ⟨fun s p q h => checksum_eq_checksum_iff.mpr (coveredBytes_perm s h).sum_eq, fun s p => ?_⟩
  rw [checksum_toNat]
  omega

/-- A list with one byte replaced has the same sum exactly when the byte is what it was. -/
theorem sum_set_eq_sum_iff {bytes : List Byte} {n : Nat} (hn : n < bytes.length) (v : Byte) :
    (bytes.set n v).sum = bytes.sum ↔ v = bytes[n] := by
  rw [List.sum_set', dif_pos hn, add_eq_left, neg_add_eq_zero, eq_comm]

/-- R135, first sentence: one covered byte changed to another value changes the checksum. -/
theorem checksum_ne_of_set {s t v : Byte} {p q : Payload} {n : Nat} (hn : n < 6)
    (hset : coveredBytes t q = (coveredBytes s p).set n v) (hne : v ≠ (coveredBytes s p)[n]'hn) :
    checksum t q ≠ checksum s p := by
  rw [Ne, checksum_eq_checksum_iff, hset, sum_set_eq_sum_iff hn]
  exact hne

/-- R136: the other covered bytes and 0x89 sum to zero, so lowering the last payload byte by `i` makes the checksum `i`. -/
theorem checksum_rangeProperty (i : Byte) : checksum 0x02#8 ⟨0xC1#8, 0x50#8, 0x61#8, 0x89#8 - i⟩ = i := by
  rw [checksum_eq_iff, coveredSum]
  bv_omega

/-- Settles O12: start byte and payload bytes are the covered bytes 0 to 4. -/
theorem checksumDetectsOneChangedByte : Obligations.ChecksumDetectsOneChangedByte :=
  ⟨fun _ _ _ => checksum_ne_of_set (n := 0) (by decide) rfl,
    fun _ _ _ => checksum_ne_of_set (n := 1) (by decide) rfl,
    fun _ _ _ => checksum_ne_of_set (n := 2) (by decide) rfl,
    fun _ _ _ => checksum_ne_of_set (n := 3) (by decide) rfl,
    fun _ _ _ => checksum_ne_of_set (n := 4) (by decide) rfl,
    checksum_rangeProperty⟩

/-! ### `CHK.CALC` -/

/-- R131: on a legal frame operand the answer is the checksum of the operand's own fields. -/
theorem execChkCalc_of_legal {w : BitVec 40} (h : legalFrameOperand w = true) (s : State) :
    execChkCalc w s = .next (s.withRes (some (.byte (checksum (frameStartField w) (framePayload w))))) := by
  obtain ⟨st, hstart, hframe⟩ := unpackFrame_of_legal h
  rw [execChkCalc, withFrameOperand_of_some hframe, endWith, frameChecksum, hstart]

/-- Settles O10: the operation answers with the checksum, whose value on naturals is R130's. -/
theorem chkCalcReturnsTheChecksum : Obligations.ChkCalcReturnsTheChecksum := by
  intro w s hlegal
  have hvalue := congrArg (BitVec.ofNat 8) (checksum_toNat (frameStartField w) (framePayload w))
  rw [BitVec.ofNat_toNat, BitVec.setWidth_eq] at hvalue
  calc exec (.chkCalc w) s = execChkCalc w s := rfl
    _ = _ := execChkCalc_of_legal hlegal s
    _ = _ := by rw [hvalue]; rfl

end Sys2Proof.Proofs

/-! PROOFS. The host's successive invocations, the encoder, and the round trip of encoder and decoder (`41_encoder.md` R140
to R153, `42_decoder.md` R177; log entry 1). -/

namespace Sys2Proof.Proofs

open Sys2Proof Sys2Proof.Machine Sys2Proof.Safety Sys2Proof.Laws

/-! ### Successive invocations -/

theorem step_of_invoking {s : State} {i : Instr} {rest : List HostInput} (hcall : s.call = none)
    (hhost : s.host = invoking i :: rest) : step s = exec i (s.withHost rest) :=
  step_of_invoke_ok hcall hhost (decodeEncodeRoundTrip i)

/-- An invocation that ends with `r`, then the rest of the run. -/
theorem runOutcomes_of_invoking {s u v : State} {i : Instr} {r : Res} {rest : List HostInput} {k : Nat}
    {os : List (Option Res)} (hcall : s.call = none) (hhost : s.host = invoking i :: rest)
    (hexec : exec i (s.withHost rest) = endWith r u) (hrest : runOutcomes k (u.withRes (some r)) = (os, v)) :
    runOutcomes (k + 1) s = (some r :: os, v) := by
  have hstep : step s = .next (u.withRes (some r)) := (step_of_invoking hcall hhost).trans hexec
  simp only [runOutcomes, hstep, hrest, State.withRes_res]

/-- Bytes pushed one a step get the decoder's verdicts, and only decoder, inputs and `res` change (R160, R171). -/
theorem runOutcomes_decPush {bs : List Byte} {s : State} {rest : List HostInput} {os : List PushOutcome} {d : Decoder}
    (hcall : s.call = none) (hhost : s.host = (bs.map fun b => invoking (.decPush b)) ++ rest)
    (hpush : decoderPushAll bs s.dec = .ok (os, d)) :
    runOutcomes bs.length s =
      (os.map fun o => some (.push o),
        { s with dec := d, host := rest, res := (os.map fun o => some (Res.push o)).getLastD s.res }) := by
  induction bs generalizing s os with
  | nil =>
    cases hpush
    cases hhost
    rfl
  | cons b bs ih =>
    obtain ⟨o, d1, os1, hb, hbs, rfl⟩ := decoderPushAll_cons_ok.mp hpush
    refine runOutcomes_of_invoking (u := (s.withHost _).withDec d1) hcall hhost
      (pushStandalone_eq_next.mpr ⟨o, d1, hb, rfl⟩) ?_
    rw [ih (by simpa using hcall) rfl hbs, List.map_cons, List.getLastD_cons]
    rfl

/-- `ENC.NEXT` invoked once a step gives the encoder's outcomes, and only encoder, inputs and `res` change (R142). -/
theorem runOutcomes_encNext {n : Nat} {s : State} {rest : List HostInput} (hcall : s.call = none)
    (hhost : s.host = List.replicate n (invoking .encNext) ++ rest) :
    runOutcomes n s =
      ((encoderTake n s.enc).1.map fun o => some (.nextByte o),
        { s with
          enc := (encoderTake n s.enc).2
          host := rest
          res := ((encoderTake n s.enc).1.map fun o => some (Res.nextByte o)).getLastD s.res }) := by
  induction n generalizing s with
  | zero =>
    cases hhost
    rfl
  | succ n ih =>
    refine runOutcomes_of_invoking (u := (s.withHost _).withEnc (encoderNext s.enc).2) hcall hhost rfl ?_
    rw [ih (by simpa using hcall) rfl, encoderTake, List.map_cons, List.getLastD_cons]
    rfl

/-! ### The frame round trip -/

theorem frameVerdict_frameChecksum (f : Frame) : frameVerdict f.start f.payload (frameChecksum f) = .frame f :=
  if_pos (checksum_eq_iff.mp rfl)

/-- A frame's wire form gets `More` for all bytes but the last and the frame for the last (R177). -/
theorem decoderPushAll_wireForm (f : Frame) {d : Decoder} (hst : d.state = .initialEsc) (hp : d.escPend = false) :
    decoderPushAll (wireForm f) d =
      .ok (List.replicate ((wireForm f).length - 1) .more ++ [.frame f],
        ⟨.initialEsc, false, f.start, f.payload⟩) := by
  have hlength := physicalForm_length (startValue f.start) f.payload (frameChecksum f)
  have hpush := decoderPushAll_physicalForm f.start f.payload (frameChecksum f) hst hp
  rw [frameVerdict_frameChecksum] at hpush
  rw [wireForm, hpush, hlength]
  congr 4
  omega

/-- Settles O23: the steps push the wire form byte by byte, and the wire form is decoded to its frame. -/
theorem decoderRoundTrip : Obligations.DecoderRoundTrip := by
  intro s f rest hcall hst hp hhost
  rw [runOutcomes_decPush hcall hhost (decoderPushAll_wireForm f hst hp)]
  simp

/-! ### `ENC.LOAD` -/

/-- R141: a frame operand that carries `f` is loaded into the standalone encoder. -/
theorem exec_encLoad {w : BitVec 40} {f : Frame} (h : unpackFrame w = some f) (s : State) :
    exec (.encLoad w) s = endWith .nothing (s.withEnc (encoderLoad f)) :=
  withFrameOperand_of_some h _

/-- Settles O13: a legal operand carries the frame of its own fields, and that frame is loaded. -/
theorem encLoadLatchesTheFrame : Obligations.EncLoadLatchesTheFrame := by
  intro w s hlegal
  obtain ⟨st, hstart, hframe⟩ := unpackFrame_of_legal hlegal
  exact ⟨st, hstart, exec_encLoad hframe s⟩

/-! ### The encoder's table -/

theorem emitStuffed_row (v : Byte) (n : EncState) (e : Encoder) :
    stuffedRow v n e (emitStuffed v n e).1 (emitStuffed v n e).2 := by
  rcases emitStuffed_cases v n e with ⟨hv, h⟩ | ⟨hv, hdup, h⟩ | ⟨hv, hdup, h⟩ <;> rw [h] <;> simp [stuffedRow, *]

/-- `ENC.NEXT` does what the row of the encoder's state says (R143 to R149, R152). -/
theorem encoderNext_row (e : Encoder) : encoderRow e (encoderNext e).1 (encoderNext e).2 := by
  unfold encoderRow encoderNext
  cases e.state with
  | waitingData0 | waitingData1 | waitingData2 | waitingData3 | waitingChecksum => exact emitStuffed_row _ _ e
  | _ => exact ⟨rfl, rfl⟩

/-- Settles O14: the operation answers with `encoderNext`, whose rows are the table's. -/
theorem encNextFollowsItsTable : Obligations.EncNextFollowsItsTable :=
  fun s => ⟨_, _, encoderNext_row s.enc, rfl⟩

/-! ### The encoder advances -/

/-- The pair (state code, `dup`) is less in `e` than in `e1`, in lexicographic order (R151). -/
def Advances (e e1 : Encoder) : Prop :=
  (encStateCode e.state).toNat < (encStateCode e1.state).toNat ∨
  (encStateCode e.state = encStateCode e1.state ∧ e.dup = false ∧ e1.dup = true)

/-- The first 0x1B of a pair sets `dup`; every other emission goes on to the next state. -/
theorem emitStuffed_advances {n : EncState} {e : Encoder} (v : Byte)
    (h : (encStateCode e.state).toNat < (encStateCode n).toNat) : Advances e (emitStuffed v n e).2 := by
  rcases emitStuffed_cases v n e with ⟨_, heq⟩ | ⟨_, hdup, heq⟩ | ⟨_, _, heq⟩ <;> rw [heq]
  · exact .inl h
  · exact .inr ⟨rfl, hdup, rfl⟩
  · exact .inl h

theorem encoderNext_advances {e : Encoder} (h : e.state ≠ .finished) : Advances e (encoderNext e).2 := by
  unfold encoderNext
  cases hst : e.state with
  | finished => exact absurd hst h
  | waitingData0 | waitingData1 | waitingData2 | waitingData3 | waitingChecksum =>
    exact emitStuffed_advances _ (by rw [hst]; decide)
  | _ => exact .inl (by simp [hst, encStateCode])

/-- Settles O16: the standalone encoder is left as `encoderNext` leaves it. -/
theorem encoderAdvancesMonotonically : Obligations.EncoderAdvancesMonotonically :=
  fun _ => ⟨_, rfl, fun h => congrArg Prod.snd (encoderNext_of_finished h), encoderNext_advances⟩

/-! ### Emitted bytes -/

/-- Successive `ENC.NEXT` from `e` emit the bytes `bs` and leave `e1`. -/
def Emits (bs : List Byte) (e e1 : Encoder) : Prop := encoderTake bs.length e = (bs.map some, e1)

theorem emits_nil (e : Encoder) : Emits [] e e := rfl

theorem Emits.cons {b : Byte} {bs : List Byte} {e e1 e2 : Encoder} (hb : encoderNext e = (some b, e1))
    (h : Emits bs e1 e2) : Emits (b :: bs) e e2 := by
  unfold Emits at h ⊢
  simp only [List.length_cons, encoderTake, hb, h, List.map_cons]

theorem encoderTake_add (n k : Nat) (e : Encoder) :
    encoderTake (n + k) e =
      ((encoderTake n e).1 ++ (encoderTake k (encoderTake n e).2).1, (encoderTake k (encoderTake n e).2).2) := by
  induction n generalizing e with
  | zero => rw [Nat.zero_add]; rfl
  | succ n ih => simp only [Nat.succ_add, encoderTake, ih, List.cons_append]

theorem Emits.append {xs ys : List Byte} {e e1 e2 : Encoder} (hx : Emits xs e e1) (hy : Emits ys e1 e2) :
    Emits (xs ++ ys) e e2 := by
  unfold Emits at hx hy ⊢
  rw [List.length_append, encoderTake_add, hx, hy, List.map_append]

/-- A finished encoder emits nothing more (R149). -/
theorem encoderTake_of_finished {e : Encoder} (h : e.state = .finished) (m : Nat) :
    encoderTake m e = (List.replicate m none, e) := by
  induction m with
  | zero => rfl
  | succ m ih => rw [encoderTake, encoderNext_of_finished h, ih]; rfl

/-! ### The emitted wire form -/

/-- A state that emits the stuffable byte `v` and goes on to `n` emits it as on the wire (R95, R145, R148). -/
theorem emits_stuff {st n : EncState} {start : StartByte} {p : Payload} {v : Byte}
    (hnext : ∀ dup, encoderNext ⟨st, dup, start, p⟩ = emitStuffed v n ⟨st, dup, start, p⟩) :
    Emits (stuff v) ⟨st, false, start, p⟩ ⟨n, false, start, p⟩ := by
  by_cases hv : v = 0x1B#8
  · subst hv
    exact .cons (hnext false) (.cons (hnext true) (emits_nil _))
  · rw [stuff_of_ne hv]
    exact .cons ((hnext false).trans (if_pos hv)) (emits_nil _)

/-- A loaded encoder emits the frame's wire form and is then finished (R143 to R148, R150). -/
theorem emits_wireForm (f : Frame) : Emits (wireForm f) (encoderLoad f) ⟨.finished, false, f.start, f.payload⟩ := by
  have hhead : Emits [Config.esc, startValue f.start] (encoderLoad f) ⟨.waitingData0, false, f.start, f.payload⟩ :=
    .cons rfl (.cons rfl (emits_nil _))
  have htail : Emits [Config.esc, Config.etx] ⟨.waitingFinalEsc, false, f.start, f.payload⟩
      ⟨.waitingChecksum, false, f.start, f.payload⟩ := .cons rfl (.cons rfl (emits_nil _))
  exact hhead.append (emits_stuff (n := .waitingData1) fun _ => rfl)
    |>.append (emits_stuff (n := .waitingData2) fun _ => rfl)
    |>.append (emits_stuff (n := .waitingData3) fun _ => rfl)
    |>.append (emits_stuff fun _ => rfl)
    |>.append htail
    |>.append (emits_stuff fun _ => rfl)

theorem encoderTake_wireForm_add (f : Frame) (m : Nat) :
    encoderTake ((wireForm f).length + m) (encoderLoad f) =
      ((wireForm f).map some ++ List.replicate m none, ⟨.finished, false, f.start, f.payload⟩) := by
  have hwire : encoderTake (wireForm f).length (encoderLoad f) = _ := emits_wireForm f
  rw [encoderTake_add, hwire, encoderTake_of_finished rfl]

/-- After the wire form and `m` further calls the last outcome is the wire form's last byte, or `None` if there are any. -/
theorem getLastD_emitted (f : Frame) (m : Nat) (r : Option Res) :
    (((wireForm f).map some ++ List.replicate m none).map fun o => some (Res.nextByte o)).getLastD r =
      if m = 0 then some (.nextByte (some ((wireForm f).getLastD 0#8))) else some (.nextByte none) := by
  cases m with
  | zero =>
    rw [wireForm, physicalForm_eq_init_append]
    simp
  | succ m =>
    rw [List.replicate_succ', ← List.append_assoc]
    simp

/-- Settles O15: one step loads the frame, the others take its wire form from the encoder and then `None`. -/
theorem encoderEmitsTheWireForm : Obligations.EncoderEmitsTheWireForm := by
  intro s f m rest hcall hhost
  have hrun : runOutcomes ((wireForm f).length + m + 1) s = _ :=
    runOutcomes_of_invoking hcall hhost (exec_encLoad (unpackFrame_packFrame f) _)
      (runOutcomes_encNext (n := (wireForm f).length + m) hcall rfl)
  simp only [State.withRes_enc, State.withEnc_enc, encoderTake_wireForm_add, getLastD_emitted] at hrun
  rw [show 1 + (wireForm f).length + m = (wireForm f).length + m + 1 by omega, hrun]
  refine ⟨?_, rfl, (wireFormShape f).2⟩
  simp [Function.comp_def]

end Sys2Proof.Proofs

/-! PROOFS. The decoder: its operations, what its registers say of the bytes it received, the language it accepts and the
length of a frame attempt (`42_decoder.md` R160 to R170, R176, R177). -/

namespace Sys2Proof.Proofs

open Sys2Proof Sys2Proof.Machine Sys2Proof.Safety Sys2Proof.Laws

/-! ### `DEC.INIT` and `DEC.PUSH` -/

/-- Settles O19: `DEC.INIT` is `reset(D)` on the standalone decoder. -/
theorem decInitRestarts : Obligations.DecInitRestarts := fun _ => rfl

theorem exec_decPush_of_ok {b : Byte} {s : State} {o : PushOutcome} {d : Decoder}
    (hpush : decoderPush b s.dec = .ok (o, d)) :
    exec (.decPush b) s = .next ((s.withDec d).withRes (some (.push o))) :=
  pushStandalone_eq_next.mpr ⟨o, d, hpush, rfl⟩

theorem exec_decPush_of_error {b : Byte} {s : State} {e : Fault} (hpush : decoderPush b s.dec = .error e) :
    exec (.decPush b) s = .fault e := by
  have hexec : exec (.decPush b) s = pushStandalone b s := rfl
  rw [hexec, pushStandalone, hpush]

/-- Settles O20: a push follows its byte's row, and faults exactly in the two transient states. -/
theorem decPushFollowsItsTable : Obligations.DecPushFollowsItsTable := by
  intro b s
  constructor
  · intro hst
    obtain ⟨⟨o, d⟩, hpush, hrow⟩ := decoderPush_row b hst
    exact ⟨o, d, hrow, exec_decPush_of_ok hpush⟩
  · intro hst
    exact exec_decPush_of_error (decoderPush_error.mpr hst)

/-! ### Verdicts other than `More` -/

theorem pushData_more_or_reset (put : Byte → Decoder) (n : DecState) (b : Byte) (d : Decoder) :
    (pushData put n b d).1 = .more ∨ (pushData put n b d).2 = decoderInit d ∧ ∃ e, (pushData put n b d).1 = .err e := by
  rcases pushData_cases put n b d with ⟨_, _, h⟩ | ⟨_, _, h⟩ | ⟨_, _, h⟩ | ⟨_, _, h⟩ <;> simp [h]

/-- A push answers `More`, or resets the decoder with an error, or with a frame for the last byte of a checksum that matches
(R162 to R169). -/
theorem decoderPush_cases {b : Byte} {d : Decoder} {x : PushOutcome × Decoder} (hpush : decoderPush b d = .ok x) :
    x.1 = .more ∨ x.2 = decoderInit d ∧ ((∃ e, x.1 = .err e) ∨ d.state = .checksum ∧
      (d.escPend = true ↔ b = Config.esc) ∧ checksum (startValue d.start) d.buf = b ∧ x.1 = .frame ⟨d.start, d.buf⟩) := by
  unfold decoderPush at hpush
  cases hst : d.state <;> rw [hst] at hpush <;> cases hpush
  case initialEsc => split_ifs <;> simp
  case startByte =>
    rcases pushStartByte_cases b d with ⟨_, _, h⟩ | ⟨_, h⟩ <;> simp [h]
  case directionAndChannel | command | dataLow | dataHigh =>
    exact (pushData_more_or_reset _ _ b d).imp_right fun ⟨hreset, herr⟩ => ⟨hreset, .inl herr⟩
  case finalEsc => split_ifs <;> simp
  case etxByte =>
    rcases pushEtxByte_cases b d with ⟨_, h⟩ | ⟨_, h⟩ | ⟨_, _, h⟩ <;> simp [h]
  case checksum =>
    rcases pushChecksum_cases b d with ⟨_, _, h⟩ | ⟨hpend, h⟩ | ⟨_, _, h⟩
    · simp [h]
    · rcases compareChecksum_cases b d with ⟨hsum, hcmp⟩ | ⟨_, hcmp⟩
      · simp [h, hcmp, hpend, hsum]
      · simp [h, hcmp]
    · simp [h]

/-- Settles O26: what answers other than `More` is a reset. -/
theorem verdictsResetTheDecoder : Obligations.VerdictsResetTheDecoder := by
  intro b d d1 o hpush hmore
  obtain hmore' | ⟨hreset, _⟩ := decoderPush_cases hpush
  · exact absurd hmore' hmore
  · exact hreset

/-! ### What the registers say of the bytes received -/

/-- The bytes of a frame's physical form before the one that a state waits for. -/
def bytesBefore (st : StartByte) (p : Payload) : DecState → List Byte
  | .startByte => [0x1B#8]
  | .directionAndChannel => [0x1B#8, startValue st]
  | .command => [0x1B#8, startValue st] ++ stuff p.d0
  | .dataLow => [0x1B#8, startValue st] ++ stuff p.d0 ++ stuff p.d1
  | .dataHigh => [0x1B#8, startValue st] ++ stuff p.d0 ++ stuff p.d1 ++ stuff p.d2
  | .finalEsc => [0x1B#8, startValue st] ++ stuff p.d0 ++ stuff p.d1 ++ stuff p.d2 ++ stuff p.d3
  | .etxByte => [0x1B#8, startValue st] ++ stuff p.d0 ++ stuff p.d1 ++ stuff p.d2 ++ stuff p.d3 ++ [0x1B#8]
  | .checksum => [0x1B#8, startValue st] ++ stuff p.d0 ++ stuff p.d1 ++ stuff p.d2 ++ stuff p.d3 ++ [0x1B#8, 0x03#8]
  | .initialEsc | .successful | .error => []

/-- The bytes a decoder has received since the 0x1B that began its frame, as its registers tell them. -/
def received (d : Decoder) : List Byte := bytesBefore d.start d.buf d.state ++ if d.escPend then [0x1B#8] else []

theorem received_of_initialEsc {d : Decoder} (hst : d.state = .initialEsc) (hp : d.escPend = false) : received d = [] := by
  simp [received, bytesBefore, hst, hp]

theorem received_of_startByte {d : Decoder} (hst : d.state = .startByte) (hp : d.escPend = false) :
    received d = [0x1B#8] := by
  simp [received, bytesBefore, hst, hp]

/-- A byte that gets `More` in a payload-byte state is received (R164). -/
theorem received_of_takesData {st next : DecState} {put : Byte → Payload → Payload} (htakes : TakesData st next put)
    {b : Byte} {d d1 : Decoder} (hst : d.state = st)
    (hput : bytesBefore d.start (put b d.buf) next = bytesBefore d.start d.buf st ++ stuff b)
    (hpush : decoderPush b d = .ok (.more, d1)) : received d1 = received d ++ [b] := by
  have hdata := Except.ok.inj ((htakes b d hst).symm.trans hpush)
  rcases pushData_cases (fun v => { d with buf := put v d.buf }) next b d with
    ⟨hp, hb, h⟩ | ⟨hp, hb, h⟩ | ⟨hp, hb, h⟩ | ⟨_, _, h⟩ <;> rw [h] at hdata <;> cases hdata
  · simp [received, hp, hb]
  · simp [received, hp, hst, hput, stuff_of_ne hb]
  · subst hb
    simp [received, hp, hst, hput]

theorem pushStartByte_more {b : Byte} {d d1 : Decoder} (h : pushStartByte b d = (.more, d1)) :
    ∃ st, b = startValue st ∧ d1 = { d with start := st, state := .directionAndChannel } := by
  rcases pushStartByte_cases b d with ⟨st, hb, hpush⟩ | ⟨_, hpush⟩ <;> rw [hpush] at h <;> cases h
  exact ⟨st, startOf_eq_some.mp hb, rfl⟩

theorem pushEtxByte_more {b : Byte} {d d1 : Decoder} (h : pushEtxByte b d = (.more, d1)) :
    b = 0x03#8 ∧ d1 = { d with state := .checksum } := by
  rcases pushEtxByte_cases b d with ⟨hb, hpush⟩ | ⟨_, hpush⟩ | ⟨_, _, hpush⟩ <;> rw [hpush] at h <;> cases h
  exact ⟨hb, rfl⟩

theorem pushChecksum_more {b : Byte} {d d1 : Decoder} (h : pushChecksum b d = (.more, d1)) :
    d.escPend = false ∧ b = 0x1B#8 ∧ d1 = { d with escPend := true } := by
  rcases pushChecksum_cases b d with ⟨hp, hb, hpush⟩ | ⟨_, hpush⟩ | ⟨_, _, hpush⟩ <;> rw [hpush] at h
  · cases h
    exact ⟨hp, hb, rfl⟩
  · rcases compareChecksum_cases b d with ⟨_, hcmp⟩ | ⟨_, hcmp⟩ <;> rw [hcmp] at h <;> cases h
  · cases h

/-- A byte that gets `More` is noise before a frame, or one more byte of the frame (R162 to R167). -/
theorem received_of_more {b : Byte} {d d1 : Decoder} (hok : DecoderOk d) (hpush : decoderPush b d = .ok (.more, d1)) :
    (received d = [] ∧ b ≠ 0x1B#8 ∧ d1 = d) ∨ received d1 = received d ++ [b] := by
  have hclear := escPend_eq_false_of_decoderOk hok
  cases hst : d.state <;> rw [hst] at hclear
  case initialEsc =>
    simp only [decoderPush, hst] at hpush
    split_ifs at hpush with hb <;> cases hpush
    · exact .inr (by simp [received, bytesBefore, hst, hclear rfl, hb])
    · exact .inl ⟨received_of_initialEsc hst (hclear rfl), hb, rfl⟩
  case startByte =>
    obtain ⟨st, rfl, rfl⟩ := pushStartByte_more (by simpa only [decoderPush, hst, Except.ok.injEq] using hpush)
    exact .inr (by simp [received, bytesBefore, hst, hclear rfl])
  case directionAndChannel => exact .inr (received_of_takesData takesData_directionAndChannel hst rfl hpush)
  case command => exact .inr (received_of_takesData takesData_command hst rfl hpush)
  case dataLow => exact .inr (received_of_takesData takesData_dataLow hst rfl hpush)
  case dataHigh => exact .inr (received_of_takesData takesData_dataHigh hst rfl hpush)
  case finalEsc =>
    simp only [decoderPush, hst] at hpush
    split_ifs at hpush with hb <;> cases hpush
    exact .inr (by simp [received, bytesBefore, hst, hclear rfl, hb])
  case etxByte =>
    obtain ⟨rfl, rfl⟩ := pushEtxByte_more (by simpa only [decoderPush, hst, Except.ok.injEq] using hpush)
    exact .inr (by simp [received, bytesBefore, hst, hclear rfl])
  case checksum =>
    obtain ⟨hp, rfl, rfl⟩ := pushChecksum_more (by simpa only [decoderPush, hst, Except.ok.injEq] using hpush)
    exact .inr (by simp [received, hp])
  case successful => exact absurd (.inl hst) hok.1
  case error => exact absurd (.inr hst) hok.1

/-- Bytes that all get `More` are noise and then what the decoder has received of a frame. -/
theorem received_of_absorbs {bs : List Byte} {d d1 : Decoder} (hok : DecoderOk d) (h : Absorbs bs d d1) :
    ∃ noise : List Byte, (∀ b ∈ noise, b ≠ 0x1B#8) ∧ received d ++ bs = noise ++ received d1 := by
  induction bs generalizing d with
  | nil =>
    cases h
    exact ⟨[], by simp⟩
  | cons b bs ih =>
    obtain ⟨e, hb, hbs⟩ := absorbs_cons_iff.mp h
    obtain ⟨noise, hnoise, heq⟩ := ih (decoderPush_keeps_decoderOk hok hb) hbs
    rcases received_of_more hok hb with ⟨hnone, hesc, rfl⟩ | hmore
    · exact ⟨b :: noise, List.forall_mem_cons.mpr ⟨hesc, hnoise⟩, by simpa [hnone] using heq⟩
    · exact ⟨noise, hnoise, by rw [← heq, hmore, List.append_assoc]; rfl⟩

/-- The byte that delivers a frame is the last of the frame's wire form (R167, R168). -/
theorem received_of_frame {b : Byte} {d d1 : Decoder} {f : Frame} (hpush : decoderPush b d = .ok (.frame f, d1)) :
    received d ++ [b] = wireForm f := by
  obtain hmore | ⟨_, ⟨e, herr⟩ | ⟨hst, hpend, hsum, hframe⟩⟩ := decoderPush_cases hpush
  · cases hmore
  · cases herr
  · cases hframe
    have hinit : received d = physicalInit (startValue d.start) d.buf b := by
      rw [received, hst, physicalInit, stuffing]
      simp only [hpend]
      rfl
    rw [hinit, ← physicalForm_eq_init_append, wireForm, frameChecksum, hsum]

/-! ### The accepted language -/

theorem decoderPush_noise {b : Byte} {d : Decoder} (hst : d.state = .initialEsc) (hb : b ≠ 0x1B#8) :
    decoderPush b d = .ok (.more, d) := by
  simp only [decoderPush, hst]
  rw [if_neg hb]

/-- A decoder in `InitialEsc` passes over anything but 0x1B (R162). -/
theorem absorbs_noise {noise : List Byte} {d : Decoder} (hst : d.state = .initialEsc) (hnoise : ∀ b ∈ noise, b ≠ 0x1B#8) :
    Absorbs noise d d := by
  induction noise with
  | nil => exact absorbs_nil d
  | cons b bs ih =>
    obtain ⟨hb, hbs⟩ := List.forall_mem_cons.mp hnoise
    exact .cons (decoderPush_noise hst hb) (ih hbs)

/-- All bytes but the last get `More`, and the last its verdict `o`. -/
theorem decoderPushAll_eq_replicate_concat {bs : List Byte} {d d2 : Decoder} {o : PushOutcome}
    (h : decoderPushAll bs d = .ok (List.replicate (bs.length - 1) .more ++ [o], d2)) :
    ∃ cs b d1, bs = cs ++ [b] ∧ Absorbs cs d d1 ∧ decoderPush b d1 = .ok (o, d2) := by
  induction bs generalizing d with
  | nil => cases h
  | cons b bs ih =>
    obtain ⟨v, d1, os, hb, hbs, hos⟩ := decoderPushAll_cons_ok.mp h
    cases bs with
    | nil =>
      cases hbs
      cases hos
      exact ⟨[], b, d, rfl, absorbs_nil d, hb⟩
    | cons c cs =>
      cases hos
      obtain ⟨xs, x, e, hsplit, hxs, hx⟩ := ih hbs
      exact ⟨b :: xs, x, e, by rw [hsplit]; rfl, .cons hb hxs, hx⟩

/-- After bytes that get `More`, the others get the verdicts of the decoder those leave. -/
theorem decoderPushAll_append_of_absorbs {xs ys : List Byte} {d d1 d2 : Decoder} {os : List PushOutcome}
    (hx : Absorbs xs d d1) (hy : decoderPushAll ys d1 = .ok (os, d2)) :
    decoderPushAll (xs ++ ys) d = .ok (List.replicate xs.length .more ++ os, d2) := by
  induction xs generalizing d with
  | nil =>
    cases hx
    exact hy
  | cons b bs ih =>
    obtain ⟨e, hb, hbs⟩ := absorbs_cons_iff.mp hx
    exact decoderPushAll_cons_ok.mpr ⟨_, _, _, hb, ih hbs, rfl⟩

theorem wireForm_length_pos (f : Frame) : 0 < (wireForm f).length := by simp [wireForm, physicalForm]

/-- Settles O24: the registers tell the received bytes, so an accepted sequence is noise and the frame's wire form; and noise
leaves the decoder waiting for a wire form. -/
theorem decoderAcceptedLanguage : Obligations.DecoderAcceptedLanguage := by
  intro bs f d hst hp
  constructor
  · rintro ⟨d2, hpush⟩
    obtain ⟨cs, b, d1, rfl, hcs, hb⟩ := decoderPushAll_eq_replicate_concat hpush
    have hok : DecoderOk d := decoderOk_of_escPend_false (by simp [transient, hst]) hp
    obtain ⟨noise, hnoise, heq⟩ := received_of_absorbs hok hcs
    rw [received_of_initialEsc hst hp, List.nil_append] at heq
    exact ⟨noise, hnoise, by rw [heq, List.append_assoc, received_of_frame hb]⟩
  · rintro ⟨noise, hnoise, rfl⟩
    have hpush := decoderPushAll_append_of_absorbs (absorbs_noise hst hnoise) (decoderPushAll_wireForm f hst hp)
    have hlength := Nat.add_sub_assoc (wireForm_length_pos f) noise.length
    rw [List.length_append, hlength, List.replicate_add, List.append_assoc]
    exact ⟨_, hpush⟩

/-! ### The length of a frame attempt -/

theorem stuff_length_le (b : Byte) : (stuff b).length ≤ 2 := by
  rw [stuff_length]
  exact Nat.add_le_add_left List.count_le_length 1

/-- What gets `More` of a frame is at most 13 bytes: 0x1B and start byte, four doubled payload bytes, 0x1B and `ETX`, and the
first 0x1B of a checksum byte. -/
theorem received_length_le (d : Decoder) : (received d).length ≤ 13 := by
  have h0 := stuff_length_le d.buf.d0
  have h1 := stuff_length_le d.buf.d1
  have h2 := stuff_length_le d.buf.d2
  have h3 := stuff_length_le d.buf.d3
  have hpend : (if d.escPend then [0x1B#8] else [] : List Byte).length ≤ 1 := by split_ifs <;> simp
  have hbefore : (bytesBefore d.start d.buf d.state).length ≤ 12 := by
    cases d.state <;> simp only [bytesBefore, List.length_append, List.length_cons, List.length_nil] <;> omega
  rw [received, List.length_append]
  omega

/-- A decoder that waits for a start byte answers `More` to at most 12 bytes. -/
theorem absorbs_length_le {bs : List Byte} {d d1 : Decoder} (hst : d.state = .startByte) (hp : d.escPend = false)
    (h : Absorbs bs d d1) : bs.length ≤ 12 := by
  have hok : DecoderOk d := decoderOk_of_escPend_false (by simp [transient, hst]) hp
  obtain ⟨noise, hnoise, heq⟩ := received_of_absorbs hok h
  rw [received_of_startByte hst hp] at heq
  cases noise with
  | nil =>
    have hlength := received_length_le d1
    rw [List.nil_append] at heq
    rw [← heq, List.length_append, List.length_singleton] at hlength
    omega
  | cons b noise =>
    cases heq
    simp at hnoise

/-- Bytes pushed into a decoder as it stands between operations get a verdict each (R171). -/
theorem decoderPushAll_of_decoderOk (bs : List Byte) {d : Decoder} (hok : DecoderOk d) :
    ∃ os d1, decoderPushAll bs d = .ok (os, d1) ∧ os.length = bs.length := by
  induction bs generalizing d with
  | nil => exact ⟨[], d, rfl, rfl⟩
  | cons b bs ih =>
    obtain ⟨⟨o, d1⟩, hb, _⟩ := decoderPush_row b hok.1
    obtain ⟨os, d2, hbs, hlength⟩ := ih (decoderPush_keeps_decoderOk hok hb)
    exact ⟨o :: os, d2, decoderPushAll_cons_ok.mpr ⟨o, d1, os, hb, hbs, rfl⟩, congrArg (· + 1) hlength⟩

/-- Settles O25: 13 bytes that all got `More` would be a longer part of a frame than any. -/
theorem decoderAnswersWithinThirteenBytes : Obligations.DecoderAnswersWithinThirteenBytes := by
  constructor
  · intro bs d hst hp hlength
    have hok : DecoderOk d := decoderOk_of_escPend_false (by simp [transient, hst]) hp
    obtain ⟨os, d1, hpush, hos⟩ := decoderPushAll_of_decoderOk bs hok
    refine ⟨os, d1, hpush, ?_⟩
    by_contra hmore
    push Not at hmore
    have habsorbs : Absorbs bs d d1 := by rw [Absorbs, hpush, ← hos, ← List.eq_replicate_length.mpr hmore]
    have hbound := absorbs_length_le hst hp habsorbs
    omega
  · exact ⟨0x02#8 :: List.replicate 9 0x1B#8 ++ [0x03#8, 0x1B#8], { Decoder.reset with state := .startByte }, rfl, rfl, rfl,
      _, rfl⟩

end Sys2Proof.Proofs

/-! PROOFS. The transact unit, operation by operation, and the exchange of a blocking call (`43_transact.md` R191 to R202;
log entries 1, 3, 5). -/

namespace Sys2Proof.Proofs

open Sys2Proof Sys2Proof.Machine Sys2Proof.Safety Sys2Proof.Laws

/-! ### The start of an exchange -/

section Start

variable {f : Frame} {t : Micros} {s : State}

/-- U3. -/
theorem transactStart_of_exchanging (h : exchanging s.txn) : transactStart f t s = .refused .exchangeInProgress := if_pos h

/-- U4. -/
theorem transactStart_of_notAdmitted (h : ¬ exchanging s.txn) (ht : t = Config.timeoutNotAdmitted) :
    transactStart f t s = .refused .timeoutNotAdmitted := by
  rw [transactStart, if_neg h, if_pos ht]

theorem transactStart_of_admitted (h : ¬ exchanging s.txn) (ht : t ≠ Config.timeoutNotAdmitted) :
    transactStart f t s = .next (s.withTxn (startedTransact f t s.txn)) := by
  rw [transactStart, if_neg h, if_neg ht]

theorem exec_txnStart {w : BitVec 40} (h : unpackFrame w = some f) (t : Micros) (s : State) :
    exec (.txnStart w t) s = thenDo (fun s1 => s1.withRes (some .nothing)) (transactStart f t s) :=
  withFrameOperand_of_some h _

theorem exec_txnRun {w : BitVec 40} (h : unpackFrame w = some f) (t : Micros) (s : State) :
    exec (.txnRun w t) s = beginCall .run f t s :=
  withFrameOperand_of_some h _

end Start

/-- Settles O29: the operand carries the frame of its own fields, and `TXN.START` is `transactStart` of that frame. -/
theorem txnStartBeginsAnExchange : Obligations.TxnStartBeginsAnExchange := by
  intro w t s hlegal
  obtain ⟨st, hstart, hframe⟩ := unpackFrame_of_legal hlegal
  rw [exec_txnStart hframe]
  refine ⟨fun hx => ?_, fun hx ht => ?_, fun hx ht => ⟨st, hstart, ?_⟩⟩
  · rw [transactStart_of_exchanging hx]; rfl
  · rw [transactStart_of_notAdmitted hx ht]; rfl
  · rw [transactStart_of_admitted hx ht]; rfl

/-- Settles O30: both operations are `transactStart` of the operand's frame, and differ in what follows it. -/
theorem txnRunBeginsABlockingCall : Obligations.TxnRunBeginsABlockingCall := by
  intro w t s hlegal
  obtain ⟨st, _, hframe⟩ := unpackFrame_of_legal hlegal
  rw [exec_txnStart hframe, exec_txnRun hframe, beginCall]
  refine ⟨fun hx => ?_, fun hx ht => ?_, fun hx ht => ?_⟩
  · rw [transactStart_of_exchanging hx]; rfl
  · rw [transactStart_of_notAdmitted hx ht]; rfl
  · rw [transactStart_of_admitted hx ht]; exact ⟨_, rfl, rfl⟩

/-! ### Bytes and idle polls of a list of answers -/

@[simp] theorem bytesOf_nil : bytesOf [] = [] := rfl
@[simp] theorem bytesOf_cons_idle (as : List PollAnswer) : bytesOf (.idle :: as) = bytesOf as := rfl
@[simp] theorem bytesOf_cons_byte (b : Byte) (as : List PollAnswer) : bytesOf (.byte b :: as) = b :: bytesOf as := rfl

@[simp] theorem bytesOf_append (as bs : List PollAnswer) : bytesOf (as ++ bs) = bytesOf as ++ bytesOf bs :=
  List.filterMap_append

@[simp] theorem bytesOf_replicate_idle (n : Nat) : bytesOf (List.replicate n .idle) = [] := by
  induction n with
  | zero => rfl
  | succ n ih => rw [List.replicate_succ, bytesOf_cons_idle, ih]

@[simp] theorem bytesOf_map_byte (bs : List Byte) : bytesOf (bs.map .byte) = bs := by
  induction bs with
  | nil => rfl
  | cons b bs ih => rw [List.map_cons, bytesOf_cons_byte, ih]

@[simp] theorem idleCount_nil : idleCount [] = 0 := rfl
@[simp] theorem idleCount_cons_idle (as : List PollAnswer) : idleCount (.idle :: as) = idleCount as + 1 := by simp [idleCount]
@[simp] theorem idleCount_cons_byte (b : Byte) (as : List PollAnswer) : idleCount (.byte b :: as) = idleCount as := by
  simp [idleCount]

@[simp] theorem idleCount_append (as bs : List PollAnswer) : idleCount (as ++ bs) = idleCount as + idleCount bs :=
  List.countP_append

@[simp] theorem idleCount_replicate_idle (n : Nat) : idleCount (List.replicate n .idle) = n := by
  induction n with
  | zero => rfl
  | succ n ih => rw [List.replicate_succ, idleCount_cons_idle, ih]

@[simp] theorem idleCount_map_byte (bs : List Byte) : idleCount (bs.map .byte) = 0 := by
  induction bs with
  | nil => rfl
  | cons b bs ih => rw [List.map_cons, idleCount_cons_byte, ih]

/-! ### The environment after transmissions and polls -/

/-- The environment after the transmission of `bs` (R62). -/
def transmitAll (bs : List Byte) (v : Environment) : Environment :=
  { v with txlog := v.txlog ++ bs, trace := v.trace ++ bs.map .transmit }

theorem transmitAll_nil (v : Environment) : transmitAll [] v = v := by simp [transmitAll]

theorem transmitAll_connTransmit (b : Byte) (bs : List Byte) (v : Environment) :
    transmitAll bs (connTransmit b v) = transmitAll (b :: bs) v := by
  simp [transmitAll, connTransmit]

/-- The calls of the poll that gets an answer, the delay of an idle one among them (R196, R197). -/
def answerCalls : PollAnswer → List EnvCall
  | .idle => [.ready false, .delay Config.pollDelayUs]
  | .byte b => [.ready true, .receive b]

/-- The environment after polls that took the answers `as` and left `rest`. -/
def answered (as rest : List PollAnswer) (v : Environment) : Environment :=
  { v with answers := rest, delays := v.delays + idleCount as, trace := v.trace ++ as.flatMap answerCalls }

theorem answered_nil {rest : List PollAnswer} {v : Environment} (h : v.answers = rest) : answered [] rest v = v := by
  subst h; simp [answered]

theorem answered_answered (as bs r rest : List PollAnswer) (v : Environment) :
    answered bs rest (answered as r v) = answered (as ++ bs) rest v := by
  simp [answered, Nat.add_assoc]

/-- A poll takes the first of the answers that are fixed (log entry 3). -/
theorem connPoll_of_fixed {v : Environment} {a : PollAnswer} {rest : List PollAnswer} (h : v.answers = a :: rest) :
    connPoll v = (a, { v with answers := rest, trace := v.trace ++ pollCalls a }) := by
  simp only [connPoll, nextAnswer, h]

/-! ### One `TXN.STEP` -/

/-- What a poll makes of the transact unit, by the answer it gets (R196, R197). -/
inductive TakesAnswer (x : Transact) : PollAnswer → Transact → Prop where
  /-- Not ready: the poll is counted. -/
  | idle : TakesAnswer x .idle (afterIdlePoll x)
  /-- Ready: the byte gets its verdict. -/
  | byte {b : Byte} {o : PushOutcome} {d : Decoder} (hpush : decoderPush b x.dec = .ok (o, d)) :
    TakesAnswer x (.byte b) (afterVerdict o d x)

section Step

variable {s : State} {x : Transact}

theorem transactStep_of_emit {b : Byte} (hphase : s.txn.phase = .send) (hemit : (encoderNext s.txn.enc).1 = some b) :
    transactStep s = .next ((s.withTxn { s.txn with enc := (encoderNext s.txn.enc).2 }).withEnv (connTransmit b s.env)) :=
  transactStep_eq_next.mpr (.inl ⟨hphase, stepSend_eq_next.mpr (.inl ⟨b, hemit, rfl⟩)⟩)

theorem transactStep_of_sent (hphase : s.txn.phase = .send) (hnone : (encoderNext s.txn.enc).1 = none) :
    transactStep s = .next (s.withTxn { s.txn with enc := (encoderNext s.txn.enc).2, phase := .poll }) :=
  transactStep_eq_next.mpr (.inl ⟨hphase, stepSend_eq_next.mpr (.inr ⟨hnone, rfl⟩)⟩)

theorem transactStep_of_answer {a : PollAnswer} {rest : List PollAnswer} (hphase : s.txn.phase = .poll)
    (hans : s.env.answers = a :: rest) (htakes : TakesAnswer s.txn a x) :
    transactStep s = .next ((s.withTxn x).withEnv (answered [a] rest s.env)) := by
  refine transactStep_eq_next.mpr (.inr ⟨hphase, stepPoll_eq_next.mpr ?_⟩)
  rw [connPoll_of_fixed hans]
  cases htakes with
  | idle => exact .inr ⟨rfl, by simp [delayUs, answered, pollCalls, answerCalls]⟩
  | byte hpush => exact .inl ⟨_, _, _, rfl, hpush, by simp [answered, pollCalls, answerCalls]⟩

/-- U5. -/
theorem transactStep_of_not_exchanging (h : ¬ exchanging s.txn) : transactStep s = .refused .noExchangeInProgress := by
  unfold transactStep
  cases hphase : s.txn.phase with
  | idle | done => rfl
  | send => exact absurd (.inl hphase) h
  | poll => exact absurd (.inr hphase) h

theorem exec_txnStep_of_next {u : State} (h : transactStep s = .next u) :
    exec .txnStep s = .next (u.withRes (some .nothing)) :=
  execTxnStep_eq_next.mpr ⟨u, h, rfl⟩

/-- The outcome that a byte's verdict gives the exchange, with the counter as it stands, if it ends it (R196). -/
def verdictOutcome (elapsed : Micros) : PushOutcome → Option ExchangeOutcome
  | .more => none
  | .frame g => some (.ok ⟨g, elapsed⟩)
  | .err e => some (.error (.segment e))

theorem afterVerdict_of_outcome {o : PushOutcome} {r : ExchangeOutcome} (d : Decoder)
    (h : verdictOutcome x.elapsed o = some r) :
    afterVerdict o d x = { x with dec := d, result := some r, phase := .done } := by
  cases o <;> cases h <;> rfl

/-- R197 on naturals: the count is tested after it is counted. -/
theorem afterIdlePoll_eq (x : Transact) :
    afterIdlePoll x =
      if (x.elapsed + 1#64).toNat > x.timeout.toNat then
        { x with elapsed := x.elapsed + 1#64, phase := .done
                 result := some (.error (.receptionTimeout (x.elapsed + 1#64))) }
      else { x with elapsed := x.elapsed + 1#64 } := rfl

theorem toNat_add_one {n : Micros} (h : n ≠ 0xFFFFFFFFFFFFFFFF#64) : (n + 1#64).toNat = n.toNat + 1 := by bv_omega

theorem afterIdlePoll_of_lt (h : x.elapsed.toNat < x.timeout.toNat) :
    afterIdlePoll x = { x with elapsed := x.elapsed + 1#64 } := by
  rw [afterIdlePoll_eq, if_neg (by bv_omega)]

theorem afterIdlePoll_of_eq (h : x.elapsed = x.timeout) (hadm : x.timeout ≠ 0xFFFFFFFFFFFFFFFF#64) :
    afterIdlePoll x =
      { x with elapsed := x.timeout + 1#64, phase := .done
               result := some (.error (.receptionTimeout (x.timeout + 1#64))) } := by
  rw [afterIdlePoll_eq, h, toNat_add_one hadm, if_pos (Nat.lt_succ_self _)]

/-- A `TXN.STEP` stays in its phase of the exchange, or goes from `Send` to `Poll`, or from `Poll` to `Done` with an outcome
(R193). -/
theorem transactStep_progress {t : State} (h : transactStep s = .next t) :
    (exchanging s.txn ∧ t.txn.phase = s.txn.phase) ∨ (s.txn.phase = .send ∧ t.txn.phase = .poll) ∨
    (s.txn.phase = .poll ∧ t.txn.phase = .done ∧ ∃ r, t.txn.result = some r) := by
  rcases transactStep_eq_next.mp h with ⟨hphase, h⟩ | ⟨hphase, h⟩
  · rcases stepSend_eq_next.mp h with ⟨b, _, rfl⟩ | ⟨_, rfl⟩
    · exact .inl ⟨.inl hphase, rfl⟩
    · exact .inr (.inl ⟨hphase, rfl⟩)
  · rcases stepPoll_eq_next.mp h with ⟨b, o, d, _, _, rfl⟩ | ⟨_, rfl⟩
    · cases o with
      | more => exact .inl ⟨.inr hphase, rfl⟩
      | frame g => exact .inr (.inr ⟨hphase, rfl, _, rfl⟩)
      | err e => exact .inr (.inr ⟨hphase, rfl, _, rfl⟩)
    · rw [afterIdlePoll_eq]
      split_ifs
      · exact .inr (.inr ⟨hphase, rfl, _, rfl⟩)
      · exact .inl ⟨.inr hphase, rfl⟩

end Step

/-- Settles O35: neither phase is one of an exchange. -/
theorem txnStepRefusedOutsideAnExchange : Obligations.TxnStepRefusedOutsideAnExchange := by
  intro s hphase
  have hx : ¬ exchanging s.txn := by rcases hphase with h | h <;> simp [exchanging, h]
  have hexec : exec .txnStep s = thenDo (fun s1 => s1.withRes (some .nothing)) (transactStep s) := rfl
  rw [hexec, transactStep_of_not_exchanging hx]
  rfl

/-- Settles O31: the row of the unit's encoder says whether there is a byte to transmit. -/
theorem txnStepInSendTransmits : Obligations.TxnStepInSendTransmits := fun s hphase =>
  ⟨_, _, encoderNext_row s.txn.enc, fun _ hemit => exec_txnStep_of_next (transactStep_of_emit hphase hemit),
    fun hnone => exec_txnStep_of_next (transactStep_of_sent hphase hnone)⟩

/-- Settles O32: the byte's row of the decoder gives the verdict, and the verdict says whether the exchange ends. -/
theorem txnStepTakesAReadyByte : Obligations.TxnStepTakesAReadyByte := by
  intro s b rest hphase hdec hans
  obtain ⟨⟨o, d⟩, hpush, hrow⟩ := decoderPush_row b hdec
  refine ⟨o, d, hrow, ?_⟩
  rw [exec_txnStep_of_next (transactStep_of_answer hphase hans (.byte hpush))]
  cases o <;> rfl

/-- Settles O33: below 2^64 - 1 the count does not wrap, so the test is the one on naturals. -/
theorem txnStepCountsAnIdlePoll : Obligations.TxnStepCountsAnIdlePoll := by
  intro s rest hphase hcount hans
  refine ⟨s.txn.elapsed + 1#64, toNat_add_one hcount, ?_⟩
  rw [exec_txnStep_of_next (transactStep_of_answer hphase hans .idle), afterIdlePoll_eq]
  rfl

/-! ### The phase changes -/

/-- The phase changes that a `TXN.STEP` makes (R193). -/
theorem transactStep_phase_change {s t : State} (h : transactStep s = .next t) (hne : t.txn.phase ≠ s.txn.phase) :
    (s.txn.phase = .send ∧ t.txn.phase = .poll) ∨ (s.txn.phase = .poll ∧ t.txn.phase = .done) := by
  rcases transactStep_progress h with ⟨_, hsame⟩ | hsent | ⟨hpoll, hdone, _⟩
  · exact absurd hsame hne
  · exact .inl hsent
  · exact .inr ⟨hpoll, hdone⟩

theorem transactStart_phase {f : Frame} {m : Micros} {s t : State} (h : transactStart f m s = .next t) :
    ¬ exchanging s.txn ∧ t.txn.phase = .send := by
  obtain ⟨hphase, _, rfl⟩ := transactStart_eq_next.mp h
  exact ⟨not_or.mpr hphase, rfl⟩

theorem beginCall_phase {c : Call} {f : Frame} {m : Micros} {s t : State} (h : beginCall c f m s = .next t) :
    ¬ exchanging s.txn ∧ t.txn.phase = .send := by
  obtain ⟨hphase, _, rfl⟩ := beginCall_eq_next.mp h
  exact ⟨not_or.mpr hphase, rfl⟩

/-- The phase changes that an operation makes: only those of the transact unit make any (R193). -/
theorem exec_phase_change {i : Instr} {s t : State} (h : exec i s = .next t) (hne : t.txn.phase ≠ s.txn.phase) :
    (i = .txnStep ∧ s.txn.phase = .send ∧ t.txn.phase = .poll) ∨
    (i = .txnStep ∧ s.txn.phase = .poll ∧ t.txn.phase = .done) ∨
    (drivesTransact i = true ∧ i ≠ .txnStep ∧ ¬ exchanging s.txn ∧ t.txn.phase = .send) := by
  have hdrives : drivesTransact i = true := by
    by_contra hnot
    obtain ⟨_, _, htxn, _⟩ := unitsAreIsolated i s t h
    obtain ⟨hstands, _⟩ := htxn (Bool.not_eq_true _ ▸ hnot)
    exact hne (by rw [hstands])
  cases i with
  | txnStart w m =>
    obtain ⟨f, _, hf⟩ := withFrameOperand_eq_next.mp h
    obtain ⟨u, hu, rfl⟩ := thenDo_eq_next.mp hf
    obtain ⟨hx, hsend⟩ := transactStart_phase hu
    exact .inr (.inr ⟨rfl, by simp, hx, hsend⟩)
  | txnStep =>
    obtain ⟨u, hu, rfl⟩ := execTxnStep_eq_next.mp h
    exact (transactStep_phase_change hu hne).imp (⟨rfl, ·⟩) fun hdone => .inl ⟨rfl, hdone⟩
  | txnRun w m =>
    obtain ⟨f, _, hf⟩ := withFrameOperand_eq_next.mp h
    exact .inr (.inr ⟨rfl, by simp, beginCall_phase hf⟩)
  | tlXpkt b k w a m =>
    have hexec : execTlXpkt b k w a m s = .next t := h
    unfold execTlXpkt at hexec
    cases hc : channelOf b with
    | none => rw [hc] at hexec; cases endWith_eq_next.mp hexec; exact absurd rfl hne
    | some c => rw [hc] at hexec; exact .inr (.inr ⟨rfl, by simp, beginCall_phase hexec⟩)
  | _ => cases hdrives

theorem phase_of_not_exchanging {x : Transact} (h : ¬ exchanging x) : x.phase = .idle ∨ x.phase = .done := by
  cases hphase : x.phase <;> simp_all [exchanging]

/-- Settles O42: first the operations; a step makes the change of its call's `TXN.STEP`, of the reset event, or of the
operation it runs. -/
theorem phaseChanges : Obligations.PhaseChanges := by
  refine ⟨fun i s t => exec_phase_change, fun s t hstep hne => ?_⟩
  rcases step_eq_next.mp hstep with ⟨c, hcall, hc⟩ | ⟨_, _, rfl⟩ | ⟨rest, hcall, hhost, rfl⟩ |
    ⟨r, rest, i, hcall, hhost, hdec, hexec⟩
  · obtain ⟨u, hu, rfl⟩ := advanceCall_eq_next.mp hc
    rw [finishCall_txn] at hne ⊢
    exact .inl ⟨.inl (by simp [hcall]), transactStep_phase_change hu hne⟩
  · exact absurd rfl hne
  · exact .inr (.inr ⟨hcall, by simp [hhost], rfl⟩)
  · have hruns : runsNext s i := ⟨hcall, r, rest, hhost, hdec⟩
    rcases exec_phase_change (s := s.withHost rest) hexec hne with
      ⟨rfl, hsent⟩ | ⟨rfl, hdone⟩ | ⟨hdrives, hnot, hx, hsend⟩
    · exact .inl ⟨.inr hruns, .inl hsent⟩
    · exact .inl ⟨.inr hruns, .inr hdone⟩
    · exact .inr (.inl ⟨⟨i, hruns, hdrives, hnot⟩, phase_of_not_exchanging hx, hsend⟩)

/-! ### One step of a blocking call -/

section CallStep

variable {s u : State} {c : Call}

theorem step_of_call (hcall : s.call = some c) : step s = advanceCall c s := by simp only [step, hcall]

theorem finishCall_of_not_done (h : s.txn.phase ≠ .done) : finishCall c s = s := by
  rcases finishCall_cases c s with ⟨_, hdone, _⟩ | ⟨_, heq⟩
  · exact absurd hdone h
  · exact heq

theorem finishCall_of_done {r : ExchangeOutcome} (hdone : s.txn.phase = .done) (hres : s.txn.result = some r) :
    finishCall c s = (s.withCall none).withRes (some (callOutcome c r)) := by
  simp only [finishCall, hdone, hres]

/-- The call goes on, as its `TXN.STEP` leaves the state (R199). -/
theorem step_of_call_goes_on (hcall : s.call = some c) (hstep : transactStep s = .next u) (hgo : u.txn.phase ≠ .done) :
    step s = .next u :=
  (step_of_call hcall).trans (advanceCall_eq_next.mpr ⟨u, hstep, (finishCall_of_not_done hgo).symm⟩)

/-- The call returns the outcome of the exchange that its `TXN.STEP` has ended (R199). -/
theorem step_of_call_returns {r : ExchangeOutcome} (hcall : s.call = some c) (hstep : transactStep s = .next u)
    (hdone : u.txn.phase = .done) (hres : u.txn.result = some r) :
    step s = .next ((u.withCall none).withRes (some (callOutcome c r))) :=
  (step_of_call hcall).trans (advanceCall_eq_next.mpr ⟨u, hstep, (finishCall_of_done hdone hres).symm⟩)

end CallStep

/-- An exchange that a `TXN.STEP` leaves `Done` has its outcome. -/
theorem transactStep_result_of_done {s t : State} (h : transactStep s = .next t) (hdone : t.txn.phase = .done) :
    ∃ r, t.txn.result = some r := by
  rcases transactStep_progress h with ⟨hx, hsame⟩ | ⟨_, hpoll⟩ | ⟨_, _, hres⟩
  · rw [exchanging, ← hsame, hdone] at hx
    simp at hx
  · rw [hpoll] at hdone
    cases hdone
  · exact hres

/-- Settles O9: the call's `TXN.STEP` writes the transact unit and the environment alone, and the return only the call and
`res`. -/
theorem blockingCallHoldsTheHost : Obligations.BlockingCallHoldsTheHost := by
  intro s t c hcall hstep
  obtain ⟨u, hu, rfl⟩ := advanceCall_eq_next.mp ((step_of_call hcall).symm.trans hstep)
  obtain ⟨henc, hdec, hcall', hhost, hres⟩ := transactStep_frame hu
  by_cases hdone : u.txn.phase = .done
  · obtain ⟨r, hr⟩ := transactStep_result_of_done hu hdone
    rw [finishCall_of_done hdone hr]
    refine ⟨hhost, henc, hdec, .inr ⟨rfl, hdone, r, hr, ?_, ?_⟩⟩ <;> rintro rfl
    · rfl
    · cases r <;> rfl
  · rw [finishCall_of_not_done hdone]
    exact ⟨hhost, henc, hdec, .inl ⟨hcall'.trans hcall, hres, hdone⟩⟩

/-! ### Runs -/

theorem run_succ {s t : State} (h : step s = .next t) (k : Nat) : run (k + 1) s = run k t := by simp only [run, h]

theorem run_one {s t : State} (h : step s = .next t) : run 1 s = .next t := run_succ h 0

theorem run_add {s t : State} {m : Nat} (h : run m s = .next t) (n : Nat) : run (m + n) s = run n t := by
  induction m generalizing s with
  | zero => cases h; rw [Nat.zero_add]
  | succ m ih =>
    rw [Nat.succ_add]
    cases hstep : step s with
    | next u => rw [run_succ hstep] at h ⊢; exact ih h
    | fault e => simp [run, hstep] at h
    | refused e => simp [run, hstep] at h

/-! ### The `Send` phase -/

theorem emits_cons_iff {b : Byte} {bs : List Byte} {e e2 : Encoder} :
    Emits (b :: bs) e e2 ↔ ∃ e1, encoderNext e = (some b, e1) ∧ Emits bs e1 e2 := by
  constructor
  · intro h
    simp only [Emits, List.length_cons, encoderTake, List.map_cons, Prod.mk.injEq, List.cons.injEq] at h
    obtain ⟨⟨hb, hbs⟩, he⟩ := h
    exact ⟨_, Prod.ext hb rfl, Prod.ext hbs he⟩
  · rintro ⟨e1, hb, hbs⟩
    exact .cons hb hbs

/-- The state after the transmission of `bs`, which leaves the unit's encoder at `e` (R195). -/
def sent (bs : List Byte) (e : Encoder) (s : State) : State :=
  (s.withTxn { s.txn with enc := e }).withEnv (transmitAll bs s.env)

/-- A call transmits what its encoder emits, one byte a step (R195). -/
theorem run_emits {bs : List Byte} {s : State} {c : Call} {e : Encoder} (hcall : s.call = some c)
    (hphase : s.txn.phase = .send) (hemits : Emits bs s.txn.enc e) : run bs.length s = .next (sent bs e s) := by
  induction bs generalizing s with
  | nil =>
    cases hemits
    rw [sent, transmitAll_nil]
    rfl
  | cons b bs ih =>
    obtain ⟨e1, hb, hbs⟩ := emits_cons_iff.mp hemits
    have htransmit := transactStep_of_emit hphase (congrArg Prod.fst hb)
    rw [hb] at htransmit
    rw [List.length_cons, run_succ (step_of_call_goes_on hcall htransmit (by simp [hphase])),
      ih (by simpa using hcall) (by simpa using hphase) hbs]
    simp only [sent, State.withEnv_txn, State.withTxn_txn, State.withEnv_env, transmitAll_connTransmit]
    rfl

/-- The state in which the request `f` has been sent (R195, R204). -/
def requested (f : Frame) (s : State) : State :=
  (s.withTxn { s.txn with phase := .poll, enc := ⟨.finished, false, f.start, f.payload⟩ }).withEnv
    (transmitAll (wireForm f) s.env)

theorem run_send {s : State} {c : Call} {f : Frame} {t : Micros} {x : Transact} (hcall : s.call = some c)
    (hstart : s.txn = startedTransact f t x) : run ((wireForm f).length + 1) s = .next (requested f s) := by
  have hphase : s.txn.phase = .send := by rw [hstart]; rfl
  have hemits : Emits (wireForm f) s.txn.enc ⟨.finished, false, f.start, f.payload⟩ := by
    rw [hstart]; exact emits_wireForm f
  rw [run_add (run_emits hcall hphase hemits)]
  exact run_one (step_of_call_goes_on hcall (transactStep_of_sent hphase rfl) nofun)

/-- Settles O36: the loaded encoder emits the wire form, and the step that finds it finished goes to `Poll`. -/
theorem sendPhaseTransmitsTheWireForm : Obligations.SendPhaseTransmitsTheWireForm :=
  fun _ _ _ _ _ hcall hstart => run_send hcall hstart

/-! ### The `Poll` phase -/

/-- The state after polls that took the answers `as`, left `rest`, and left the unit's decoder at `d`. -/
def polled (as rest : List PollAnswer) (d : Decoder) (s : State) : State :=
  (s.withTxn { s.txn with dec := d, elapsed := s.txn.elapsed + BitVec.ofNat 64 (idleCount as) }).withEnv
    (answered as rest s.env)

section Polled

variable (as rest : List PollAnswer) (d : Decoder) (s : State)

@[simp] theorem polled_call : (polled as rest d s).call = s.call := rfl
@[simp] theorem polled_phase : (polled as rest d s).txn.phase = s.txn.phase := rfl
@[simp] theorem polled_timeout : (polled as rest d s).txn.timeout = s.txn.timeout := rfl
@[simp] theorem polled_dec : (polled as rest d s).txn.dec = d := rfl
@[simp] theorem polled_answers : (polled as rest d s).env.answers = rest := rfl

@[simp] theorem polled_elapsed :
    (polled as rest d s).txn.elapsed = s.txn.elapsed + BitVec.ofNat 64 (idleCount as) := rfl

end Polled

theorem polled_polled (as bs r rest : List PollAnswer) (d1 d : Decoder) (s : State) :
    polled bs rest d (polled as r d1 s) = polled (as ++ bs) rest d s := by
  simp only [polled, State.withEnv_txn, State.withTxn_txn, State.withEnv_env, answered_answered, idleCount_append,
    BitVec.ofNat_add, BitVec.add_assoc]
  rfl

section Polls

variable {s : State} {c : Call} {rest : List PollAnswer}

theorem polled_nil (h : s.env.answers = rest) : polled [] rest s.txn.dec s = s := by
  rw [polled, answered_nil h, idleCount_nil, BitVec.add_zero]
  rfl

/-- An idle poll of a call with time left (R197). -/
theorem step_of_idle_poll (hcall : s.call = some c) (hphase : s.txn.phase = .poll) (hans : s.env.answers = .idle :: rest)
    (htime : s.txn.elapsed.toNat < s.txn.timeout.toNat) : step s = .next (polled [.idle] rest s.txn.dec s) := by
  have hpoll := transactStep_of_answer hphase hans .idle
  rw [afterIdlePoll_of_lt htime] at hpoll
  exact step_of_call_goes_on (u := polled _ _ _ s) hcall hpoll (by simp [hphase])

/-- A ready poll of a call, whose byte gets `More` (R196). -/
theorem step_of_more {b : Byte} {d : Decoder} (hcall : s.call = some c) (hphase : s.txn.phase = .poll)
    (hans : s.env.answers = .byte b :: rest) (hpush : decoderPush b s.txn.dec = .ok (.more, d)) :
    step s = .next (polled [.byte b] rest d s) := by
  have hpoll := transactStep_of_answer hphase hans (.byte hpush)
  have hstep := step_of_call_goes_on hcall hpoll (by simp [hphase, afterVerdict])
  simpa [polled, afterVerdict] using hstep

/-- A call takes answers whose bytes all get `More` and whose idle polls are no more than the time left (R196, R197). -/
theorem run_polls {as : List PollAnswer} {d : Decoder} (hcall : s.call = some c) (hphase : s.txn.phase = .poll)
    (hans : s.env.answers = as ++ rest) (hbytes : Absorbs (bytesOf as) s.txn.dec d)
    (htime : idleCount as ≤ s.txn.timeout.toNat - s.txn.elapsed.toNat) :
    run as.length s = .next (polled as rest d s) := by
  induction as generalizing s with
  | nil =>
    cases hbytes
    exact congrArg _ (polled_nil hans).symm
  | cons a as ih =>
    rw [List.cons_append] at hans
    cases a with
    | idle =>
      rw [idleCount_cons_idle] at htime
      have hleft : s.txn.elapsed.toNat < s.txn.timeout.toNat := by omega
      have hcount : (s.txn.elapsed + 1#64).toNat = s.txn.elapsed.toNat + 1 := by bv_omega
      have hrest := ih (s := polled [.idle] (as ++ rest) s.txn.dec s) hcall hphase rfl hbytes (by simp [hcount]; omega)
      rw [List.length_cons, run_succ (step_of_idle_poll hcall hphase hans hleft), hrest, polled_polled]
      rfl
    | byte b =>
      rw [bytesOf_cons_byte] at hbytes
      rw [idleCount_cons_byte] at htime
      obtain ⟨d1, hb, hbs⟩ := absorbs_cons_iff.mp hbytes
      have hrest := ih (s := polled [.byte b] (as ++ rest) d1 s) hcall hphase rfl hbs (by simpa using htime)
      rw [List.length_cons, run_succ (step_of_more hcall hphase hans hb), hrest, polled_polled]
      rfl

end Polls

/-- Settles O40: the bytes are noise to a decoder in `InitialEsc`, and there is no idle poll to count. -/
theorem babblingLineKeepsPolling : Obligations.BabblingLineKeepsPolling := by
  intro s c bs rest hcall hphase hst _ hnoise hans
  have hbytes : Absorbs (bytesOf (bs.map .byte)) s.txn.dec s.txn.dec := by
    rw [bytesOf_map_byte]; exact absorbs_noise hst hnoise
  have hrun := run_polls hcall hphase hans hbytes (by simp)
  rw [List.length_map] at hrun
  exact ⟨_, hrun, by simp [polled], hcall, by simp [polled, answered], rfl, rfl⟩

/-! ### A whole blocking call -/

section WholeCall

variable {s : State} {c : Call} {f : Frame} {t : Micros} {hs : List HostInput} {as rest : List PollAnswer} {d : Decoder}

/-- The state in which the call `c` has begun the exchange of `f`, with `hs` the host's later inputs (R199). -/
def begun (c : Call) (f : Frame) (t : Micros) (hs : List HostInput) (s : State) : State :=
  ((s.withHost hs).withTxn (startedTransact f t s.txn)).withCall (some c)

theorem beginCall_of_admitted (hx : ¬ exchanging s.txn) (ht : t ≠ Config.timeoutNotAdmitted) :
    beginCall c f t (s.withHost hs) = .next (begun c f t hs s) :=
  beginCall_eq_next.mpr ⟨not_or.mp hx, ht, rfl⟩

/-- The transact unit in `Poll` after the answers `as` to the request `f`, with its decoder at `d`. -/
def pollingTransact (f : Frame) (t : Micros) (as : List PollAnswer) (d : Decoder) : Transact :=
  { phase := .poll, timeout := t, elapsed := BitVec.ofNat 64 (idleCount as), result := none,
    enc := ⟨.finished, false, f.start, f.payload⟩, dec := d }

/-- The environment after the request `f` and the answers `as`. -/
def exchanged (f : Frame) (as rest : List PollAnswer) (v : Environment) : Environment :=
  answered as rest (transmitAll (wireForm f) v)

theorem answered_exchanged (f : Frame) (as bs r rest : List PollAnswer) (v : Environment) :
    answered bs rest (exchanged f as r v) = exchanged f (as ++ bs) rest v :=
  answered_answered as bs r rest _

/-- A call sends its request and takes answers whose bytes get `More` and whose idle polls are within the timeout (R195 to
R198). -/
theorem run_call (hbegin : step s = .next (begun c f t hs s)) (hans : s.env.answers = as ++ rest)
    (hbytes : Absorbs (bytesOf as) (decoderInit s.txn.dec) d) (htime : idleCount as ≤ t.toNat) :
    run (1 + ((wireForm f).length + 1) + as.length) s =
      .next { s with txn := pollingTransact f t as d, env := exchanged f as rest s.env, call := some c, host := hs } := by
  have hsend : run (1 + ((wireForm f).length + 1)) s = .next (requested f (begun c f t hs s)) := by
    rw [run_add (run_one hbegin)]
    exact run_send rfl rfl
  have hpolls : run as.length (requested f (begun c f t hs s)) = .next (polled as rest d (requested f (begun c f t hs s))) :=
    run_polls rfl rfl hans hbytes htime
  rw [run_add hsend, hpolls]
  simp only [polled, requested, begun, startedTransact, pollingTransact, State.withEnv_txn, State.withTxn_txn,
    State.withCall_txn, BitVec.zero_add]
  rfl

/-- One more answer, which ends the exchange with `r`, makes the call return (R196, R197, R199). -/
theorem run_call_returns {a : PollAnswer} {x : Transact} {r : ExchangeOutcome}
    (hbegin : step s = .next (begun c f t hs s)) (hans : s.env.answers = as ++ a :: rest)
    (hbytes : Absorbs (bytesOf as) (decoderInit s.txn.dec) d) (htime : idleCount as ≤ t.toNat)
    (hlast : TakesAnswer (pollingTransact f t as d) a x) (hdone : x.phase = .done) (hres : x.result = some r) :
    run (1 + ((wireForm f).length + 1) + (as ++ [a]).length) s =
      .next { s with txn := x, env := exchanged f (as ++ [a]) rest s.env, call := none, host := hs,
                     res := some (callOutcome c r) } := by
  have hrun := run_call hbegin hans hbytes htime
  rw [List.length_append, List.length_singleton, ← Nat.add_assoc, run_add hrun,
    ← answered_exchanged f as [a] (a :: rest)]
  exact run_one (step_of_call_returns rfl (transactStep_of_answer rfl rfl hlast) hdone hres)

/-- A script whose last byte gets a verdict other than `More`, and no byte before it does, makes the call return (R196,
R200). -/
theorem run_call_verdict {script : List PollAnswer} {last : Byte} {o : PushOutcome} {d2 : Decoder} {r : ExchangeOutcome}
    (hbegin : step s = .next (begun c f t hs s)) (hans : s.env.answers = script ++ rest)
    (hscript : script.getLast? = some (.byte last))
    (hpush : decoderPushAll (bytesOf script) (decoderInit s.txn.dec) =
      .ok (List.replicate ((bytesOf script).length - 1) .more ++ [o], d2))
    (htime : idleCount script ≤ t.toNat) (hverdict : verdictOutcome (BitVec.ofNat 64 (idleCount script)) o = some r) :
    ∃ x, x.phase = .done ∧ run (1 + ((wireForm f).length + 1) + script.length) s =
      .next { s with txn := x, env := exchanged f script rest s.env, call := none, host := hs,
                     res := some (callOutcome c r) } := by
  obtain ⟨as, rfl⟩ := List.getLast?_eq_some_iff.mp hscript
  obtain ⟨cs, b, d1, hsplit, hcs, hb⟩ := decoderPushAll_eq_replicate_concat hpush
  simp only [bytesOf_append, bytesOf_cons_byte, bytesOf_nil] at hsplit
  obtain ⟨rfl, hlast⟩ := List.append_inj' hsplit rfl
  cases hlast
  simp only [idleCount_append, idleCount_cons_byte, idleCount_nil, Nat.add_zero] at htime hverdict
  rw [List.append_assoc] at hans
  refine ⟨_, ?_, run_call_returns hbegin hans hcs htime (.byte hb) ?_ ?_⟩
  all_goals rw [afterVerdict_of_outcome d2 hverdict]

end WholeCall

/-- `TXN.RUN` of a frame, invoked outside an exchange with an admitted timeout, begins its call. -/
theorem step_begins_run {s : State} {f : Frame} {t : Micros} {hs : List HostInput} (hcall : s.call = none)
    (hx : ¬ exchanging s.txn) (ht : t ≠ Config.timeoutNotAdmitted)
    (hhost : s.host = invoking (.txnRun (packFrame f) t) :: hs) : step s = .next (begun .run f t hs s) :=
  (step_of_invoking hcall hhost).trans ((exec_txnRun (unpackFrame_packFrame f) t _).trans (beginCall_of_admitted hx ht))

/-- Settles O37: the polls use up the timeout, and the one after them exceeds it. -/
theorem silentLineTimesOut : Obligations.SilentLineTimesOut := by
  intro s f t hs rest hcall hx ht hhost hans
  rw [List.replicate_succ', List.append_assoc] at hans
  have hlast := afterIdlePoll_of_eq (x := pollingTransact f t (List.replicate t.toNat .idle) (decoderInit s.txn.dec))
    (by simp [pollingTransact]) ht
  have hrun := run_call_returns (step_begins_run hcall hx ht hhost) hans (d := decoderInit s.txn.dec)
    (by rw [bytesOf_replicate_idle]; exact absorbs_nil _) (by simp) .idle (by rw [hlast]) (by rw [hlast])
  rw [List.length_append, List.length_replicate] at hrun
  refine ⟨_, hrun, rfl, rfl, rfl, ?_, ?_, ?_, rfl, rfl, rfl, rfl⟩
  · rw [hlast]
  · rw [hlast]; exact toNat_add_one ht
  · simp [exchanged, answered, transmitAll]

/-- Settles O38: the bytes of the script are accepted by the unit's decoder, which the start of the exchange has reset. -/
theorem responseEndsTheExchange : Obligations.ResponseEndsTheExchange := by
  intro s f g t hs script rest noise last hcall hx ht hhost hans hscript hnoise hbytes htime
  obtain ⟨d1, hpush⟩ := (decoderAcceptedLanguage (bytesOf script) g (decoderInit s.txn.dec) rfl rfl).mpr
    ⟨noise, hnoise, hbytes⟩
  obtain ⟨x, hdone, hrun⟩ := run_call_verdict (step_begins_run hcall hx ht hhost) hans hscript hpush htime rfl
  exact ⟨_, hrun, rfl, rfl, rfl, hdone, rfl, rfl, rfl, rfl, rfl⟩

/-! ### The request of `TL.XPKT` -/

theorem messageKind_messageOf (k : Kind) (w : Byte) (a : Word) : messageKind (messageOf k w a) = k := by
  have hlast : k ≠ Config.kindGetWord → k ≠ Config.kindResetBitmask → k ≠ Config.kindSetBitmask →
      Config.kindSetWord = k := by
    revert k; decide
  unfold messageOf
  split_ifs with hget hreset hset
  · exact hget.symm
  · exact hreset.symm
  · exact hset.symm
  · exact hlast hget hreset hset

theorem messageWaddr_messageOf (k : Kind) (w : Byte) (a : Word) : messageWaddr (messageOf k w a) = w := by
  unfold messageOf; split_ifs <;> rfl

/-- The argument is ignored for GetWord (R28, R231). -/
theorem messageArg_messageOf (k : Kind) (w : Byte) (a : Word) :
    messageArg (messageOf k w a) = if k = 0#2 then 0#16 else a := by
  unfold messageOf; split_ifs <;> rfl

theorem makeFrame_messageOf (c : Channel) (k : Kind) (w : Byte) (a : Word) :
    makeFrame c (messageOf k w a) = ⟨.stx, ⟨k ++ c, w, if k = 0#2 then 0x00#8 else a.extractLsb' 0 8,
      if k = 0#2 then 0x00#8 else a.extractLsb' 8 8⟩⟩ := by
  rw [makeFrame_eq_append, messageKind_messageOf, messageWaddr_messageOf, messageArg_messageOf]
  split_ifs <;> rfl

/-- `TL.XPKT` on a valid channel, invoked outside an exchange with an admitted timeout, begins its call. -/
theorem step_begins_xpkt {s : State} {c : Byte} {k : Kind} {w : Byte} {a : Word} {t : Micros} {hs : List HostInput}
    (hcall : s.call = none) (hx : ¬ exchanging s.txn) (ht : t ≠ Config.timeoutNotAdmitted) (hc : c.toNat < 64)
    (hhost : s.host = invoking (.tlXpkt c k w a t) :: hs) :
    step s = .next (begun .xpkt (makeFrame (c.extractLsb' 0 6) (messageOf k w a)) t hs s) := by
  have hexec : exec (.tlXpkt c k w a t) (s.withHost hs) =
      beginCall .xpkt (makeFrame (c.extractLsb' 0 6) (messageOf k w a)) t (s.withHost hs) := by
    simp only [exec, execTlXpkt, channelOf_of_lt hc]
  rw [step_of_invoking hcall hhost, hexec, beginCall_of_admitted hx ht]

/-- There are as many verdicts as bytes (R171). -/
theorem decoderPushAll_length {bs : List Byte} {d d1 : Decoder} {os : List PushOutcome}
    (h : decoderPushAll bs d = .ok (os, d1)) : os.length = bs.length := by
  induction bs generalizing d os with
  | nil => cases h; rfl
  | cons b bs ih =>
    obtain ⟨o, d2, os1, _, hbs, rfl⟩ := decoderPushAll_cons_ok.mp h
    exact congrArg (· + 1) (ih hbs)

/-- All decoders in `InitialEsc` give the same verdicts (R49, R161). -/
theorem decoderPushAll_of_initialEsc {bs : List Byte} {d d1 : Decoder} {os : List PushOutcome} (hst : d.state = .initialEsc)
    (hp : d.escPend = false) (h : decoderPushAll bs d = .ok (os, d1)) (e : Decoder) :
    ∃ e1, decoderPushAll bs (decoderInit e) = .ok (os, e1) := by
  have hinit : decoderInit d = d := by rw [decoderInit, ← hst, ← hp]
  rcases decoderPushAll_same bs (hinit ▸ decoderInit_same d e) with ⟨f, hd, _⟩ | ⟨os1, d2, e1, hd, he, _⟩
  · rw [hd] at h; cases h
  · rw [hd] at h; cases h; exact ⟨e1, he⟩

/-- Settles O39: the unit's decoder answers as the fresh one does, and the outcome of the exchange is wrapped. -/
theorem decodeErrorEndsTheExchange : Obligations.DecodeErrorEndsTheExchange := by
  intro s c k w a t hs script rest last d0 d1 e n hcall hx ht hc hhost hans hscript hst hp hpush htime
  obtain ⟨d2, hpush'⟩ := decoderPushAll_of_initialEsc hst hp hpush s.txn.dec
  have hn : n = (bytesOf script).length - 1 := by
    have hlength := decoderPushAll_length hpush
    simp only [List.length_append, List.length_replicate, List.length_singleton] at hlength
    omega
  rw [hn] at hpush'
  obtain ⟨x, hdone, hrun⟩ := run_call_verdict (step_begins_xpkt hcall hx ht hc hhost) hans hscript hpush' htime rfl
  have hframe := makeFrame_messageOf (c.extractLsb' 0 6) k w a
  exact ⟨_, _, rfl, rfl, by rw [hframe], by rw [hframe], by rw [hframe], by rw [hframe], hrun, rfl, rfl, rfl, hdone, rfl,
    rfl, rfl, rfl, rfl⟩

end Sys2Proof.Proofs

/-! PROOFS. The transport layer: its pure operations, the frames it builds, and the beginning of `TL.XPKT`
(`44_transport.md` R222 to R238). -/

namespace Sys2Proof.Proofs

open Sys2Proof Sys2Proof.Machine Sys2Proof.Safety Sys2Proof.Laws

/-! ### Start bytes and frames refined -/

theorem exec_sbTomaster (st : StartByte) (s : State) :
    exec (.sbTomaster (startValue st)) s = endWith (.masterStartByte (toMaster st)) s :=
  withStartOperand_of_some (startOf_startValue st) _

theorem exec_sbToslave (st : StartByte) (s : State) :
    exec (.sbToslave (startValue st)) s = endWith (.slaveStartByte (toSlave st)) s :=
  withStartOperand_of_some (startOf_startValue st) _

theorem exec_frToslave {w : BitVec 40} {st : StartByte} (h : frameStartField w = startValue st) (s : State) :
    exec (.frToslave w) s = endWith (.slaveFrame (toSlaveFrame ⟨st, framePayload w⟩)) s :=
  withFrameOperand_of_some (unpackFrame_eq_some.mpr ⟨startOf_eq_some.mpr h, rfl⟩) _

/-- Settles O43: a byte is the value of one of the three start bytes, or of none. -/
theorem sbFromClassifies : Obligations.SbFromClassifies := by
  intro b s
  cases hb : startOf b with
  | some st =>
    obtain rfl := startOf_eq_some.mp hb
    cases st <;> rfl
  | none =>
    obtain ⟨hstx, hack, hnack⟩ := startOf_eq_none.mp hb
    rw [if_neg hstx, if_neg hack, if_neg hnack, exec, execSbFrom, hb]
    rfl

/-- Settles O44: each clause is the conversion of one start byte, or of a byte that is none. -/
theorem startByteRefinements : Obligations.StartByteRefinements := by
  intro s
  refine ⟨exec_sbTomaster .stx s, ?_, exec_sbToslave .ack s, exec_sbToslave .nack s, exec_sbToslave .stx s, ?_⟩
  · rintro b (rfl | rfl)
    · exact exec_sbTomaster .ack s
    · exact exec_sbTomaster .nack s
  · intro b hstx hack hnack
    have hb : startOf b = none := startOf_eq_none.mpr ⟨hstx, hack, hnack⟩
    exact ⟨withStartOperand_of_none hb _, withStartOperand_of_none hb _⟩

/-- Settles O45: the conversion looks at the start byte of the operand's frame alone. -/
theorem frToslaveChecksOrigin : Obligations.FrToslaveChecksOrigin := fun _ s =>
  ⟨fun h => exec_frToslave (st := .stx) h s, fun h => exec_frToslave (st := .ack) h s,
    fun h => exec_frToslave (st := .nack) h s⟩

/-! ### Channels -/

/-- The six bits of a channel hold all of its byte (R26). -/
theorem setWidth_channel {c : Byte} (h : c.toNat < 64) : (c.extractLsb' 0 6).setWidth 8 = c := by
  apply BitVec.eq_of_toNat_eq
  simp only [BitVec.toNat_setWidth, BitVec.extractLsb'_toNat, Nat.shiftRight_zero]
  omega

theorem channel_beq_zero {c : Byte} (h : c.toNat < 64) : (c.extractLsb' 0 6 == 0#6) = decide (c.toNat = 0) := by
  have hzero : c.extractLsb' 0 6 = 0#6 ↔ c.toNat = 0 := by
    rw [← BitVec.toNat_inj, BitVec.extractLsb'_toNat, Nat.shiftRight_zero, Nat.mod_eq_of_lt h]
    rfl
  rw [beq_eq_decide, decide_eq_decide]
  exact hzero

/-- Settles O47: the bound of the operation is that of `channelOf`. -/
theorem chFromBound : Obligations.ChFromBound := by
  intro b s
  by_cases h : 64 ≤ b.toNat
  · rw [if_pos h, exec, execChFrom, channelOf_of_ge h]
    rfl
  · rw [if_neg h, exec, execChFrom, channelOf_of_lt (Nat.lt_of_not_le h)]
    rfl

/-- Settles O48: on a channel the six bits are zero exactly when the byte is. -/
theorem chIszeroOnChannels : Obligations.ChIszeroOnChannels := by
  refine fun b s => ⟨fun h => ?_, fun h => withChannelOperand_of_none (channelOf_of_ge h) _⟩
  rw [exec, execChIszero, withChannelOperand_of_some (channelOf_of_lt h), channel_beq_zero h]
  rfl

/-! ### Words -/

theorem lowByte_eq_ofNat (w : Word) : lowByte w = BitVec.ofNat 8 (w.toNat % 256) := by
  apply BitVec.eq_of_toNat_eq
  simp [lowByte]

theorem highByte_eq_ofNat (w : Word) : highByte w = BitVec.ofNat 8 (w.toNat / 256) := by
  apply BitVec.eq_of_toNat_eq
  simp [highByte, Nat.shiftRight_eq_div_pow]

@[simp] theorem joinBytes_lowByte_highByte (w : Word) : joinBytes (lowByte w) (highByte w) = w :=
  cut_join (n := 8) (m := 8) w

@[simp] theorem lowByte_joinBytes (l h : Byte) : lowByte (joinBytes l h) = l := append_low h l

@[simp] theorem highByte_joinBytes (l h : Byte) : highByte (joinBytes l h) = h := append_high h l

theorem joinBytes_eq_ofNat (l h : Byte) : joinBytes l h = BitVec.ofNat 16 (h.toNat * 256 + l.toNat) := by
  apply BitVec.eq_of_toNat_eq
  rw [joinBytes, BitVec.toNat_append, ← Nat.shiftLeft_add_eq_or_of_lt l.isLt, Nat.shiftLeft_eq, BitVec.toNat_ofNat]
  omega

theorem wordBit_eq_getLsbD (w : Word) (pos : BitVec 4) : wordBit w pos = w.getLsbD pos.toNat := by
  have hpos := pos.isLt
  unfold wordBit
  split_ifs with hlow
  · simp [lowByte, show pos.toNat < 8 by omega]
  · simp [highByte, show pos.toNat - 8 < 8 by omega, show 8 + (pos.toNat - 8) = pos.toNat by omega]

/-- Settles O49: the two bytes as remainder and quotient by 256, and the two round trips. -/
theorem word16SplitAndJoin : Obligations.Word16SplitAndJoin := by
  refine ⟨fun w s => ?_, fun low high s => ?_, joinBytes_lowByte_highByte,
    fun l h => ⟨lowByte_joinBytes l h, highByte_joinBytes l h⟩⟩
  · rw [← lowByte_eq_ofNat, ← highByte_eq_ofNat]
    rfl
  · rw [exec, execW16Join, joinBytes_lowByte_highByte, ← joinBytes_eq_ofNat]
    rfl

/-- Settles O50: bits 0 to 7 stand in the low byte, bits 8 to 15 in the high one. -/
theorem word16Bit : Obligations.Word16Bit := by
  intro w pos s
  rw [← wordBit_eq_getLsbD]
  rfl

/-! ### Payload byte 0 -/

theorem byte0Kind_eq_ofNat (b : Byte) : byte0Kind b = BitVec.ofNat 2 (b.toNat / 64) := by
  apply BitVec.eq_of_toNat_eq
  simp [byte0Kind, Nat.shiftRight_eq_div_pow]

theorem byte0Channel_eq_ofNat (b : Byte) : byte0Channel b = BitVec.ofNat 6 (b.toNat % 64) := by
  apply BitVec.eq_of_toNat_eq
  simp [byte0Channel]

theorem byte0Kind_packByte0 (k : Kind) (c : Channel) : byte0Kind (packByte0 k c) = k := by
  rw [packByte0_eq_append]
  exact append_high k c

theorem byte0Channel_packByte0 (k : Kind) (c : Channel) : byte0Channel (packByte0 k c) = c := by
  rw [packByte0_eq_append]
  exact append_low k c

/-- Kind and channel joined are the direction code OR'd with the channel byte (R231). -/
theorem append_channel (k : Kind) {c : Byte} (h : c.toNat < 64) : k ++ c.extractLsb' 0 6 = k.setWidth 8 <<< 6 ||| c := by
  rw [← packByte0_eq_append, packByte0, setWidth_channel h]

theorem exec_plSplit0 (b : Byte) (s : State) :
    exec (.plSplit0 b) s = endWith (.kindChannel (byte0Kind b) (byte0Channel b)) s := rfl

/-- Settles O53: the two fields as quotient and remainder by 64, and as what was packed. -/
theorem plSplit0RecoversKindAndChannel : Obligations.PlSplit0RecoversKindAndChannel := by
  refine ⟨fun b s => ?_, fun k c s => ?_⟩
  · rw [exec_plSplit0, byte0Kind_eq_ofNat, byte0Channel_eq_ofNat]
    rfl
  · have hpacked := exec_plSplit0 (packByte0 k c) s
    rw [byte0Kind_packByte0, byte0Channel_packByte0] at hpacked
    exact hpacked

/-! ### The master frame of each message kind -/

section Frames

variable {c : Byte}

/-- R232: the argument is not looked at. -/
theorem makeFrame_getWord (h : c.toNat < 64) (w : Byte) (a : Word) :
    makeFrame (c.extractLsb' 0 6) (messageOf Config.kindGetWord w a) = ⟨.stx, ⟨c, w, 0x00#8, 0x00#8⟩⟩ := by
  simp [makeFrame_messageOf, append_channel _ h]

/-- R233 to R235: direction code and channel, the word address, the argument low byte first. -/
theorem makeFrame_of_ne_getWord (h : c.toNat < 64) {k : Kind} (hk : k ≠ Config.kindGetWord) (w : Byte) (a : Word) :
    makeFrame (c.extractLsb' 0 6) (messageOf k w a) =
      ⟨.stx, ⟨k.setWidth 8 <<< 6 ||| c, w, a.extractLsb' 0 8, a.extractLsb' 8 8⟩⟩ := by
  rw [makeFrame_messageOf, append_channel _ h, if_neg hk, if_neg hk]

theorem exec_tlMkframe (h : c.toNat < 64) {k : Kind} {w : Byte} {a : Word} {f : Frame}
    (hframe : makeFrame (c.extractLsb' 0 6) (messageOf k w a) = f) (s : State) :
    exec (.tlMkframe c k w a) s = endWith (.frame f) s := by
  rw [exec, execTlMkframe, withChannelOperand_of_some (channelOf_of_lt h), hframe]

end Frames

/-- Settles O51: the operation answers with `makeFrame`, whose value is known for each kind. -/
theorem mkframeBuildsMasterFrames : Obligations.MkframeBuildsMasterFrames := by
  refine fun c w a s => ⟨fun h => ⟨?_, ?_, ?_, ?_⟩, fun h k => withChannelOperand_of_none (channelOf_of_ge h) _⟩
  · exact exec_tlMkframe h (makeFrame_getWord h w a) s
  · exact exec_tlMkframe h (makeFrame_of_ne_getWord h (by decide) w a) s
  · exact exec_tlMkframe h (makeFrame_of_ne_getWord h (by decide) w a) s
  · exact exec_tlMkframe h (makeFrame_of_ne_getWord h (by decide) w a) s

/-! ### `TL.XPKT` -/

/-- Settles O54: the channel is checked before anything else (R276 (a)). -/
theorem xpktInvalidChannelHasNoEffect : Obligations.XpktInvalidChannelHasNoEffect := by
  intro c k w a t s h
  rw [exec, execTlXpkt, channelOf_of_ge h]
  rfl

section Xpkt

variable {c : Byte} {t : Micros} {s : State}

theorem exec_tlXpkt (h : c.toNat < 64) (k : Kind) (w : Byte) (a : Word) :
    exec (.tlXpkt c k w a t) s = beginCall .xpkt (makeFrame (c.extractLsb' 0 6) (messageOf k w a)) t s := by
  rw [exec, execTlXpkt, channelOf_of_lt h]

/-- The call of a master frame begins with the registers of R191. -/
theorem exec_tlXpkt_of_admitted (h : c.toNat < 64) (hx : ¬ exchanging s.txn) (ht : t ≠ Config.timeoutNotAdmitted)
    {k : Kind} {w : Byte} {a : Word} {p : Payload} (hframe : makeFrame (c.extractLsb' 0 6) (messageOf k w a) = ⟨.stx, p⟩) :
    exec (.tlXpkt c k w a t) s =
      .next ((s.withTxn (startedTransact ⟨.stx, p⟩ t s.txn)).withCall (some .xpkt)) := by
  rw [exec_tlXpkt h, hframe]
  exact beginCall_eq_next.mpr ⟨not_or.mp hx, ht, rfl⟩

end Xpkt

/-- Settles O55: a refused start refuses the call; an admitted one begins it with the frame of the message's kind. -/
theorem xpktBeginsTheExchangeOfItsFrame : Obligations.XpktBeginsTheExchangeOfItsFrame := by
  intro c w v t s h
  refine ⟨fun hx k => ?_, fun hx ht k => ?_, fun hx ht i p hmem => ?_⟩
  · rw [exec_tlXpkt h, beginCall, transactStart_of_exchanging hx]
    rfl
  · rw [exec_tlXpkt h, beginCall, transactStart_of_notAdmitted hx ht]
    rfl
  · simp only [List.mem_cons, Prod.mk.injEq, List.not_mem_nil, or_false] at hmem
    rcases hmem with ⟨rfl, rfl⟩ | ⟨rfl, rfl⟩ | ⟨rfl, rfl⟩ | ⟨rfl, rfl⟩ | ⟨rfl, rfl⟩
    · exact exec_tlXpkt_of_admitted h hx ht (makeFrame_getWord h w v)
    · exact exec_tlXpkt_of_admitted h hx ht (makeFrame_getWord h w 0#16)
    · exact exec_tlXpkt_of_admitted h hx ht (makeFrame_of_ne_getWord h (by decide) w v)
    · exact exec_tlXpkt_of_admitted h hx ht (makeFrame_of_ne_getWord h (by decide) w v)
    · exact exec_tlXpkt_of_admitted h hx ht (makeFrame_of_ne_getWord h (by decide) w v)

end Sys2Proof.Proofs

/-! PROOFS. The refused start bytes, what each error carries and how it is shown as bits, and the completion of every
well-formed instruction (`60_exceptions.md` R262 to R285). -/

namespace Sys2Proof.Proofs

open Sys2Proof Sys2Proof.Machine Sys2Proof.Safety Sys2Proof.Laws

/-! ### Ill-typed start bytes -/

/-- Settles O46: the operand is unpacked before the phase or the timeout is looked at. -/
theorem illTypedStartByteRefused : Obligations.IllTypedStartByteRefused := by
  intro w b t s
  constructor
  · intro hillegal
    have hrefused (k : Frame → StepOutcome) : withFrameOperand w k = .refused (.notAStartByte (w.extractLsb' 32 8)) :=
      withFrameOperand_of_none (unpackFrame_of_illegal hillegal) k
    simp only [List.forall_mem_cons]
    exact ⟨hrefused _, hrefused _, hrefused _, hrefused _, hrefused _, by simp⟩
  · intro hillegal
    have hrefused (k : StartByte → StepOutcome) : withStartOperand b k = .refused (.notAStartByte b) :=
      withStartOperand_of_none (legalStartByte_eq_false.mp hillegal) k
    simp only [List.forall_mem_cons]
    exact ⟨hrefused _, hrefused _, by simp⟩

/-! ### Errors as bits -/

/-- The verdicts on a frame row are shown as the last of them (log entry 7). -/
theorem resErrorBits_pushes (os : List PushOutcome) :
    resErrorBits (.pushes os) = resErrorBits (.push (os.getLastD .more)) := rfl

/-- The verdicts on a frame row are an error exactly when the last of them is one (log entry 7). -/
theorem isError_pushes (os : List PushOutcome) : isError (.pushes os) = isError (.push (os.getLastD .more)) := by
  rw [List.getLastD_eq_getLast?, isError]
  rcases os.getLast? with _ | _ | _ | _ <;> rfl

theorem resErrorBits_push_of_not_error {o : PushOutcome} (h : isError (.push o) = false) :
    resErrorBits (.push o) = (0#4, 0#64) := by
  cases o with
  | more | frame => rfl
  | err => cases h

/-- R273: code 0 is shown for whatever is no error. -/
theorem resErrorBits_of_not_error {r : Res} (h : isError r = false) : resErrorBits r = (0#4, 0#64) := by
  cases r with
  | push o => exact resErrorBits_push_of_not_error h
  | pushes os =>
    rw [resErrorBits_pushes]
    exact resErrorBits_push_of_not_error ((isError_pushes os).symm.trans h)
  | exchange o | transport o | startByte o | masterStartByte o | slaveStartByte o | slaveFrame o | channel o =>
    cases o with
    | ok => rfl
    | error => cases h
  | _ => rfl

/-- The computed checksum stands above the received one in the info field (R273). -/
theorem setWidth_append_eq_ofNat (e r : Byte) : (e ++ r).setWidth 64 = BitVec.ofNat 64 (e.toNat * 256 + r.toNat) := by
  have hjoin : e ++ r = BitVec.ofNat 16 (e.toNat * 256 + r.toNat) := joinBytes_eq_ofNat r e
  rw [hjoin]
  bv_omega

/-- Settles O28: each error's bits are written in R273's table, the verdicts on a frame row show the last, and any other outcome
shows code 0. -/
theorem errorCodesOfOutcomes : Obligations.ErrorCodesOfOutcomes := by
  refine ⟨fun _ => rfl, rfl, fun _ => rfl, rfl, fun e r => congrArg (5#4, ·) (setWidth_append_eq_ofNat e r),
    fun _ => ⟨rfl, rfl, rfl⟩, fun _ => ⟨rfl, rfl⟩, fun _ => rfl, rfl, rfl, rfl, rfl, fun _ => ⟨rfl, rfl⟩, fun os e => ?_,
    fun _ => resErrorBits_of_not_error⟩
  rw [resErrorBits_pushes, List.getLastD_concat]

/-! ### The causes of the decoder's errors -/

/-- The causes of a decode error (R263 to R267), each with what the error carries: the byte `b` pushed into the decoder `d`. -/
inductive ErrorCause (b : Byte) (d : Decoder) : SegmentError → Prop where
  /-- R263: a byte that is no start byte, where one is awaited. -/
  | noStartByte (hst : d.state = .startByte) (hb : startOf b = none) : ErrorCause b d (.invalidStartByte b)
  /-- R264: a fifth payload byte. -/
  | fifthByte (hst : d.state = .finalEsc) (hb : b ≠ Config.esc) : ErrorCause b d .bufferOverFlow
  /-- R264: a fifth payload byte that is stuffed. -/
  | fifthEscape (hst : d.state = .etxByte) (hb : b = Config.esc) : ErrorCause b d .bufferOverFlow
  /-- R265: neither `ETX` nor the second 0x1B of a pair. -/
  | noEtx (hst : d.state = .etxByte) (hetx : b ≠ Config.etx) (hesc : b ≠ Config.esc) :
    ErrorCause b d (.expectedEtxOrEscDupButFoundOtherThing b)
  /-- R266: the first 0x1B of a pair without the second. -/
  | unpairedEscape (hst : destuffing d.state = true) (hpend : d.escPend = true) (hb : b ≠ Config.esc) :
    ErrorCause b d .checksumIsEscButNotDuplicated
  /-- R267: the destuffed checksum byte is not the computed one. -/
  | mismatch (hst : d.state = .checksum) (hne : checksum (startValue d.start) d.buf ≠ b) :
    ErrorCause b d (.invalidChecksum (checksum (startValue d.start) d.buf) b)

section Causes

variable {b : Byte} {d d1 : Decoder} {e : SegmentError}

theorem pushStartByte_err (hst : d.state = .startByte) (h : pushStartByte b d = (.err e, d1)) : ErrorCause b d e := by
  rcases pushStartByte_cases b d with ⟨st, _, hpush⟩ | ⟨hb, hpush⟩ <;> rw [hpush] at h <;> cases h
  exact .noStartByte hst hb

theorem pushData_err {put : Byte → Decoder} {n : DecState} (hst : destuffing d.state = true)
    (h : pushData put n b d = (.err e, d1)) : ErrorCause b d e := by
  rcases pushData_cases put n b d with ⟨_, _, hpush⟩ | ⟨_, _, hpush⟩ | ⟨_, _, hpush⟩ | ⟨hpend, hb, hpush⟩ <;>
    rw [hpush] at h <;> cases h
  exact .unpairedEscape hst hpend hb

theorem pushEtxByte_err (hst : d.state = .etxByte) (h : pushEtxByte b d = (.err e, d1)) : ErrorCause b d e := by
  rcases pushEtxByte_cases b d with ⟨_, hpush⟩ | ⟨hb, hpush⟩ | ⟨hetx, hesc, hpush⟩ <;> rw [hpush] at h <;> cases h
  · exact .fifthEscape hst hb
  · exact .noEtx hst hetx hesc

theorem pushChecksum_err (hst : d.state = .checksum) (h : pushChecksum b d = (.err e, d1)) : ErrorCause b d e := by
  rcases pushChecksum_cases b d with ⟨_, _, hpush⟩ | ⟨_, hpush⟩ | ⟨hpend, hb, hpush⟩ <;> rw [hpush] at h
  · cases h
  · rcases compareChecksum_cases b d with ⟨_, hcmp⟩ | ⟨hne, hcmp⟩ <;> rw [hcmp] at h <;> cases h
    exact .mismatch hst hne
  · cases h
    exact .unpairedEscape (by rw [hst]; rfl) hpend hb

/-- A push that answers an error has one of the error's causes (R162 to R168). -/
theorem decoderPush_err (hpush : decoderPush b d = .ok (.err e, d1)) : ErrorCause b d e := by
  unfold decoderPush at hpush
  cases hst : d.state <;> rw [hst] at hpush
  case initialEsc => split_ifs at hpush <;> cases hpush
  case startByte => exact pushStartByte_err hst (Except.ok.inj hpush)
  case directionAndChannel | command | dataLow | dataHigh =>
    exact pushData_err (by rw [hst]; rfl) (Except.ok.inj hpush)
  case finalEsc =>
    split_ifs at hpush with hb <;> cases hpush
    exact .fifthByte hst hb
  case etxByte => exact pushEtxByte_err hst (Except.ok.inj hpush)
  case checksum => exact pushChecksum_err hst (Except.ok.inj hpush)
  case successful | error => cases hpush

end Causes

/-- Settles O27: the cause of an error says which state it arises in and what it carries. -/
theorem segmentErrorsCarryTheirValues : Obligations.SegmentErrorsCarryTheirValues := by
  intro b d d1 e hpush
  refine ⟨?_, ?_, ?_, ?_, ?_⟩
  · rintro x rfl
    cases decoderPush_err hpush with
    | noStartByte hst hb => exact ⟨hst, rfl, startOf_eq_none.mp hb⟩
  · rintro rfl
    cases decoderPush_err hpush with
    | fifthByte hst hb => exact .inl ⟨hst, hb⟩
    | fifthEscape hst hb => exact .inr ⟨hst, hb⟩
  · rintro x rfl
    cases decoderPush_err hpush with
    | noEtx hst hetx hesc => exact ⟨hst, rfl, hetx, hesc⟩
  · rintro rfl
    cases decoderPush_err hpush with
    | unpairedEscape hst hpend hb => exact ⟨hst, hpend, hb⟩
  · rintro x y rfl
    cases decoderPush_err hpush with
    | mismatch hst hne => exact ⟨hst, rfl, rfl, hne⟩

/-! ### Completion -/

/-- The operation ends with a next state: no fault and no refusal. -/
def Completes (o : StepOutcome) : Prop := ∃ t, o = .next t

theorem endWith_completes (r : Res) (s : State) : Completes (endWith r s) := ⟨_, rfl⟩

theorem thenDo_completes {o : StepOutcome} (f : State → State) (h : Completes o) : Completes (thenDo f o) := by
  obtain ⟨u, rfl⟩ := h
  exact ⟨f u, rfl⟩

theorem withFrameOperand_completes {w : BitVec 40} {k : Frame → StepOutcome} (h : legalFrameOperand w = true)
    (hk : ∀ f, Completes (k f)) : Completes (withFrameOperand w k) := by
  obtain ⟨_, _, hframe⟩ := unpackFrame_of_legal h
  rw [withFrameOperand_of_some hframe]
  exact hk _

theorem withStartOperand_completes {b : Byte} {k : StartByte → StepOutcome} (h : legalStartByte b = true)
    (hk : ∀ st, Completes (k st)) : Completes (withStartOperand b k) := by
  obtain ⟨st, hstart⟩ := legalStartByte_iff.mp h
  rw [withStartOperand_of_some hstart]
  exact hk st

theorem withChannelOperand_completes {b : Byte} {k : Channel → StepOutcome} (h : legalChannelOperand b = true)
    (hk : ∀ c, Completes (k c)) : Completes (withChannelOperand b k) := by
  rw [withChannelOperand_of_some (channelOf_of_lt (of_decide_eq_true h))]
  exact hk _

section Units

variable {s : State}

/-- A decoder that holds no transient state takes any byte (R46 (a), U2a). -/
theorem pushStandalone_completes (b : Byte) (h : DecoderOk s.dec) : Completes (pushStandalone b s) := by
  obtain ⟨⟨o, d⟩, hpush, _⟩ := decoderPush_row b h.1
  exact ⟨_, pushStandalone_eq_next.mpr ⟨o, d, hpush, rfl⟩⟩

/-- R278: whatever the verdicts on a frame row are, the decoder is ready for the byte after each. -/
theorem receiveFrame_completes (start : Byte) (p : Payload) (chk : Byte) (h : DecoderOk s.dec) :
    Completes (receiveFrame start p chk s) := by
  obtain ⟨os, d, hpush, _⟩ := decoderPushAll_of_decoderOk (physicalForm start p chk) h
  exact ⟨_, receiveFrame_eq_next.mpr ⟨os, d, hpush, rfl⟩⟩

theorem transactStart_completes (f : Frame) {t : Micros} (hx : ¬ exchanging s.txn) (ht : admittedTimeout t = true) :
    Completes (transactStart f t s) :=
  ⟨_, transactStart_of_admitted hx (bne_iff_ne.mp ht)⟩

theorem stepPoll_completes (h : DecoderOk s.txn.dec) : Completes (stepPoll s) := by
  cases hans : (connPoll s.env).1 with
  | idle => exact ⟨_, stepPoll_eq_next.mpr (.inr ⟨hans, rfl⟩)⟩
  | byte b =>
    obtain ⟨⟨o, d⟩, hpush, _⟩ := decoderPush_row b h.1
    exact ⟨_, stepPoll_eq_next.mpr (.inl ⟨b, o, d, hans, hpush, rfl⟩)⟩

/-- During an exchange a `TXN.STEP` completes (R193; log entry 16). -/
theorem transactStep_completes (h : DecoderOk s.txn.dec) (hx : exchanging s.txn) : Completes (transactStep s) := by
  rcases hx with hsend | hpoll
  · cases hemit : (encoderNext s.txn.enc).1 with
    | some b => exact ⟨_, transactStep_of_emit hsend hemit⟩
    | none => exact ⟨_, transactStep_of_sent hsend hemit⟩
  · obtain ⟨u, hu⟩ := stepPoll_completes h
    exact ⟨u, transactStep_eq_next.mpr (.inr ⟨hpoll, hu⟩)⟩

end Units

/-- `TL.XPKT` completes on a byte that is no channel, with its error, and on a channel when its call may begin (R237). -/
theorem exec_tlXpkt_completes {c : Byte} {t : Micros} {s : State} (k : Kind) (w : Byte) (a : Word)
    (hx : c.toNat < 64 → ¬ exchanging s.txn) (ht : c.toNat < 64 → admittedTimeout t = true) :
    Completes (exec (.tlXpkt c k w a t) s) := by
  by_cases hc : c.toNat < 64
  · rw [exec_tlXpkt hc]
    exact thenDo_completes _ (transactStart_completes _ (hx hc) (ht hc))
  · exact ⟨_, xpktInvalidChannelHasNoEffect c k w a t s (Nat.le_of_not_lt hc)⟩

/-- Settles O60, row by row: a legal operand is unpacked, a decoder that meets the invariant takes any byte, and an exchange
starts or goes on in its phase. -/
theorem wellFormedOperationsComplete : Obligations.WellFormedOperationsComplete := by
  rintro i s ⟨_, hdec, ⟨_, _, _, _, _, _, htxnDec⟩, _⟩ h hphase
  change Completes (exec i s)
  have hwell (hd : drivesDecoder i = false) : wellFormed i = true := h.resolve_right (by simp [hd])
  cases i with
  | esc | etx | stx | ack | nack | decPush => exact pushStandalone_completes _ hdec
  | frameStx | frameAck | frameNack => exact receiveFrame_completes _ _ _ hdec
  | getword | resetbitmask | setbitmask | setword | encNext | decInit | w16Split | w16Join | w16Bit | plSplit0 =>
    exact endWith_completes _ _
  | chkCalc | encLoad | frToslave => exact withFrameOperand_completes (hwell rfl) fun _ => endWith_completes _ _
  | sbTomaster | sbToslave => exact withStartOperand_completes (hwell rfl) fun _ => endWith_completes _ _
  | chIszero | tlMkframe => exact withChannelOperand_completes (hwell rfl) fun _ => endWith_completes _ _
  | sbFrom b => exact ⟨_, sbFromClassifies b s⟩
  | chFrom b => exact ⟨_, chFromBound b s⟩
  | txnStart w t | txnRun w t =>
    obtain ⟨hlegal, ht⟩ := Bool.and_eq_true_iff.mp (hwell rfl)
    exact withFrameOperand_completes hlegal fun f => thenDo_completes _ (transactStart_completes f hphase ht)
  | txnStep => exact thenDo_completes _ (transactStep_completes htxnDec hphase)
  | tlXpkt c k w a t =>
    have ht (hc : c.toNat < 64) : admittedTimeout t = true := by
      simpa only [wellFormed, legalChannelOperand, hc, decide_true, Bool.not_true, Bool.false_or] using hwell rfl
    exact exec_tlXpkt_completes k w a hphase ht

end Sys2Proof.Proofs
